-- ==== Sys2Proof/Word.lean ====
section
/-! DEFINITION. The word types of CANLL: every value is unsigned (00_scope R12), and the three parameter widths
`CLK_W`, `CNT_W` and `TICK_W` are 32 (00_scope R11). -/

namespace Sys2Proof

/-- A 32-bit word: a command word, a counter, a clock frequency, a bit rate, a data word of the controller. -/
abbrev Word := BitVec 32

/-- One payload byte, or a code of `R_STATUS`. -/
abbrev Byte := BitVec 8

/-- A reading of the tick clock, or a number of ticks (60_exceptions R296). -/
abbrev Tick := BitVec 32

end Sys2Proof
end

