-- ==== Sys2Proof/Syntax.lean ====
section
/-! DEFINITION. The records CANLL moves (Frame, ReceivedFrame, Timings: 10_state R40, R41, R44) and its instruction
set: one constructor of `Instr` per row of spec/opcode_table.json (30_encoding R100). -/

namespace Sys2Proof

/-- Frame (10_state R41, 30_encoding R90, R93): the identifier word with its three flag bits, the data length code, and
the eight payload bytes, byte 0 first on the wire (20_memory R64). -/
structure Frame where
  id : Word
  dlc : BitVec 4
  data : Vector Byte 8
deriving DecidableEq, Repr, Inhabited

/-- The two flags of a ReceivedFrame as `A_RXF` holds them (10_state R22, word W4 of 30_encoding R94). -/
structure RxFlags where
  loopback : Bool
  failed : Bool
deriving DecidableEq, Repr, Inhabited

/-- ReceivedFrame (10_state R40, 30_encoding R94). -/
structure ReceivedFrame where
  frame : Frame
  loopback : Bool
  failed : Bool
  ts : Tick
deriving DecidableEq, Repr, Inhabited

/-- Timings (10_state R44): actual counts of clock cycles and quanta, not register codes. -/
structure Timings where
  prescaler : BitVec 11
  sjw : BitVec 3
  bs1 : BitVec 5
  bs2 : BitVec 4
deriving DecidableEq, Repr, Inhabited

/-- The options of START (44_session R241: `A_OPT` bit 0 `loopback`, bit 1 `silent`). -/
structure StartOpts where
  loopback : Bool
  silent : Bool
deriving DecidableEq, Repr, Inhabited

/-- The twenty-four operations of 30_encoding R100. EVTXC alone carries a slot index and the success flag (format X),
EVRXA alone a FIFO index (format I); every other operation is format N (30_encoding R98). -/
inductive Instr where
  | tcalc
  | pricmp
  | canacc
  | mbload
  | qpush
  | qpop
  | qreset
  | qlen
  | evtxc (idx : BitVec 2) (ok : Bool)
  | evrxa (idx : BitVec 2)
  | evsts
  | start
  | stop
  | send
  | receive
  | waittx
  | waitrx
  | rderr
  | rdovf
  | rdtxc
  | rdrxc
  | rdlec
  | rdpeak
  | rdact
deriving DecidableEq, Repr

end Sys2Proof
end

