-- ==== Sys2Proof/WellFormed.lean ====
section
/-! DEFINITION. What the spec calls well formed: an index operand in the range of its index space (20_memory R61, R65)
and a frame whose identifier and data length code fit its format (30_encoding R91). -/

namespace Sys2Proof

/-- An instruction whose index operand names something that exists: a transmit slot 0 to 2 (43_event_handlers R211), a
receive FIFO 0 or 1 (R214). An instruction that is not well formed still decodes; it raises `BAD_INDEX`. -/
def Instr.wellFormed : Instr → Bool
  | .evtxc idx _ => decide (idx.toNat < 3)
  | .evrxa idx => decide (idx.toNat < 2)
  | _ => true

/-- A well-formed frame (30_encoding R91): `dlc <= 8`, and bits 28:11 of a standard-format identifier are zero. No
operation refuses a frame for those bits; every comparison ignores them. -/
def Frame.wellFormed (f : Frame) : Bool :=
  decide (f.dlc.toNat ≤ 8) && (f.id.getLsbD 31 || f.id.extractLsb' 11 18 == 0#18)

end Sys2Proof
end

