-- ==== Sys2Proof/Decode.lean ====
section
/-! DEFINITION. Decoding a command word (30_encoding R98 to R101), total, each rejection by name; then the encoder. -/

namespace Sys2Proof

/-- Why a command word is not an operation (30_encoding R99). Each raises `ILLEGAL_OP`. -/
inductive IllegalWord where
  /-- `w[31:11]` is not zero. -/
  | reservedBits
  /-- `w[7:0]` is not a code of R100 (the list of R101). -/
  | reservedCode
  /-- `idx` or `ok` is not zero where the format requires it. -/
  | fieldNotZero
deriving DecidableEq, Repr

/-- What a command word decodes to. -/
inductive Decoded where
  | instr (i : Instr)
  | illegal (why : IllegalWord)
deriving DecidableEq, Repr

/-- Field `op`, bits 7:0 (30_encoding R98). -/
def cmdOp (w : Word) : Byte := w.extractLsb' 0 8

/-- Field `idx`, bits 9:8 (30_encoding R98). -/
def cmdIdx (w : Word) : BitVec 2 := w.extractLsb' 8 2

/-- Field `ok`, bit 10 (30_encoding R98). -/
def cmdOk (w : Word) : Bool := w.getLsbD 10

/-- The reserved field, bits 31:11 (30_encoding R98). -/
def cmdReserved (w : Word) : BitVec 21 := w.extractLsb' 11 21

/-- Format N: `idx` and `ok` must be zero (30_encoding R98). -/
def formatN (idx : BitVec 2) (ok : Bool) (i : Instr) : Decoded :=
  if idx = 0#2 ∧ ok = false then .instr i else .illegal .fieldNotZero

/-- Format I: `ok` must be zero, `idx` is an operand (30_encoding R98). -/
def formatI (ok : Bool) (i : Instr) : Decoded :=
  if ok = false then .instr i else .illegal .fieldNotZero

/-- The operation map by code (30_encoding R100), reserved codes rejected (R101). -/
def decodeFields (op : Byte) (idx : BitVec 2) (ok : Bool) : Decoded :=
  match op.toNat with
  | 0x01 => formatN idx ok .tcalc
  | 0x02 => formatN idx ok .pricmp
  | 0x10 => formatN idx ok .canacc
  | 0x11 => formatN idx ok .mbload
  | 0x20 => formatN idx ok .qpush
  | 0x21 => formatN idx ok .qpop
  | 0x22 => formatN idx ok .qreset
  | 0x23 => formatN idx ok .qlen
  | 0x30 => .instr (.evtxc idx ok)
  | 0x31 => formatI ok (.evrxa idx)
  | 0x32 => formatN idx ok .evsts
  | 0x40 => formatN idx ok .start
  | 0x41 => formatN idx ok .stop
  | 0x42 => formatN idx ok .send
  | 0x43 => formatN idx ok .receive
  | 0x48 => formatN idx ok .waittx
  | 0x49 => formatN idx ok .waitrx
  | 0x50 => formatN idx ok .rderr
  | 0x51 => formatN idx ok .rdovf
  | 0x52 => formatN idx ok .rdtxc
  | 0x53 => formatN idx ok .rdrxc
  | 0x54 => formatN idx ok .rdlec
  | 0x55 => formatN idx ok .rdpeak
  | 0x56 => formatN idx ok .rdact
  | _ => .illegal .reservedCode

/-- Decoding a command word (30_encoding R99): total, no fall-through. -/
def decode (w : Word) : Decoded :=
  if cmdReserved w = 0#21 then decodeFields (cmdOp w) (cmdIdx w) (cmdOk w)
  else .illegal .reservedBits

/-- The operation code of an instruction (30_encoding R100). -/
def opCode : Instr → Byte
  | .tcalc => 0x01
  | .pricmp => 0x02
  | .canacc => 0x10
  | .mbload => 0x11
  | .qpush => 0x20
  | .qpop => 0x21
  | .qreset => 0x22
  | .qlen => 0x23
  | .evtxc _ _ => 0x30
  | .evrxa _ => 0x31
  | .evsts => 0x32
  | .start => 0x40
  | .stop => 0x41
  | .send => 0x42
  | .receive => 0x43
  | .waittx => 0x48
  | .waitrx => 0x49
  | .rderr => 0x50
  | .rdovf => 0x51
  | .rdtxc => 0x52
  | .rdrxc => 0x53
  | .rdlec => 0x54
  | .rdpeak => 0x55
  | .rdact => 0x56

/-- The `idx` field of an instruction's command word (30_encoding R98). -/
def idxField : Instr → BitVec 2
  | .evtxc idx _ => idx
  | .evrxa idx => idx
  | _ => 0#2

/-- The `ok` field of an instruction's command word (30_encoding R98). -/
def okField : Instr → Bool
  | .evtxc _ ok => ok
  | _ => false

/-- The command word with the given fields and zero reserved bits (30_encoding R98). -/
def cmdWord (op : Byte) (idx : BitVec 2) (ok : Bool) : Word :=
  0#21 ++ BitVec.ofBool ok ++ idx ++ op

/-- The command word of an instruction. -/
def encode (i : Instr) : Word := cmdWord (opCode i) (idxField i) (okField i)

/-- The instruction `decode` reads from the `nbits`-bit number `w`, the bits above `nbits` zero; `none` where it
refuses. -/
def decodeTableWord (nbits w : Nat) : Option Instr :=
  match decode (BitVec.ofNat 32 (w % 2 ^ nbits)) with
  | .instr i => some i
  | .illegal _ => none

end Sys2Proof
end

