-- ==== Sys2Proof/Config.lean ====
section
/-! DEFINITION. What the spec fixes as a parameter (00_scope R10, R11), and the free values: constants with no body, so
that a claim about them holds for every value they may have. -/

namespace Sys2Proof

/-- `Q_CAP`, the capacity of the receive queue (00_scope R10). -/
abbrev Config.queueCap : Nat := 16

/-- `MAX_DLC`, the largest data length code (00_scope R10). -/
abbrev Config.maxDlc : Nat := 8

/-- `FAST_RATE`: at or above it a bit has at most `maxqFast` quanta (00_scope R10). -/
abbrev Config.fastRate : Nat := 1000000

/-- `MAXQ_FAST` (00_scope R10). -/
abbrev Config.maxqFast : Nat := 10

/-- `MAXQ_SLOW` (00_scope R10). -/
abbrev Config.maxqSlow : Nat := 17

/-- `MIN_SUM`, the smallest `bs1 + bs2` the search accepts (00_scope R11, 90_conflicts C2). -/
abbrev Config.minSum : Nat := 3

/-- `PRESC_MAX` (00_scope R10). -/
abbrev Config.prescMax : Nat := 1024

/-- `BS1_MAX` (00_scope R10). -/
abbrev Config.bs1Max : Nat := 16

/-- `BS2_MAX` (00_scope R10). -/
abbrev Config.bs2Max : Nat := 8

/-- `SP_MAX_PERMILLE` (00_scope R10). -/
abbrev Config.spMaxPermille : Nat := 900

/-- `SJW_QUANTA` (00_scope R11, 40_timing R139). -/
abbrev Config.sjwQuanta : Nat := 1

/-- One less than `INIT_RETRY_BOUND`: an open parameter (00_scope R11, 92_eei_decisions D30). Log 8. -/
opaque Config.initRetryExtra : Nat

/-- `INIT_RETRY_BOUND`: how often START reads `init_ack` before it gives up, at least 1 (44_session R243). Log 8. -/
def Config.initRetryBound : Nat := Config.initRetryExtra + 1

/-- FREE: what ring entry `i` holds after the `n`-th draw, a START constructing Driver State (10_state R27,
93_implementation_defined U4). Log 5. -/
opaque Config.freeEntry : Nat → Nat → ReceivedFrame

/-- FREE: what `slot[i].frame` holds after the `n`-th draw (10_state R32, 93_implementation_defined U4). Log 5. -/
opaque Config.freeSlotFrame : Nat → Nat → Frame

/-- FREE: `R_TIM` after TCALC failed (40_timing R130, 93_implementation_defined U2). Log 6. -/
opaque Config.freeTimings : Nat → Timings

/-- FREE: `R_RXF` after RECEIVE returned `NO_DATA` (44_session R262, 93_implementation_defined U3). Log 6. -/
opaque Config.freeReceived : Nat → ReceivedFrame

/-- FREE: what a wrapping counter holds after its `2^32`-th event (10_state R35, 70_reset R348,
93_implementation_defined U5). Log 7. -/
opaque Config.freeCount : Nat → Word

end Sys2Proof
end

