-- ==== Sys2Proof/Machine/State.lean ====
section
/-! DEFINITION. The state of CANLL as plain data: the session (10_state R20, R21), the lock (R45), the operand and result
registers (R22, R23), Driver State (R25 to R43), the CAN controller as its ports show and record it (60_exceptions R300
to R308), the tick clock, the sequences in progress, the interrupt context, and the moves the agents make next. -/

namespace Sys2Proof.Machine

/-! ### Reasons and codes -/

/-- Why the model stops. The faults of 60_exceptions R283 are NOT among these: their delivery is defined (R284) and is a
next state. -/
inductive Fault where
  /-- Raised by the meanings of START, STOP, SEND, RECEIVE, WAITTX and WAITRX when the issuing thread already has
  another sequence or wait in progress: 30_encoding R97 says the agent "issues nothing else until then" and gives no
  effect. Safe: no step of the machine raises it, since `step` lets a busy thread only carry on. Log 10. -/
  | agentBusy
deriving DecidableEq, Repr

/-- Why an instruction has no meaning in the model. -/
inductive Refusal where
  /-- Raised by an arm of `exec` whose instruction has no meaning yet. Safe. No arm raises it now. -/
  | notModelled (mnemonic : String)
deriving DecidableEq, Repr

/-- The result codes of 60_exceptions R281. -/
inductive ResultCode where
  | ok
  | invalidBitRate
  | initModeNotEntered
  | initModeNotCleared
  | unsupportedFrame
  | logic
  | noFreeSlot
  | notSent
  | noData
  | waitTimeout
deriving DecidableEq, Repr

/-- The faults of 60_exceptions R283. Delivering one is a next state (R284). -/
inductive OpFault where
  | illegalOp
  | context
  | notRunning
  | badIndex
  | emptyPop
  | rxDlc
  | rxEmpty
deriving DecidableEq, Repr

/-! ### Session, agents, registers -/

/-- `sess` (10_state R20). -/
inductive Session where
  | stopped
  | running
deriving DecidableEq, Repr

/-- Who issues an operation: a thread (thread context) or the interrupt dispatcher (interrupt context) (60_exceptions
R290). Threads are numbered by the model only. Log 19. -/
inductive Agent where
  | thread (t : Nat)
  | interrupt
deriving DecidableEq, Repr

/-- Which of the three completions of a wait a thread's move tries (43_event_handlers R228 a, b, c). Log 22. -/
inductive Wake where
  | signalled
  | expired
  | spurious
deriving DecidableEq, Repr

/-- The operand registers (10_state R22). -/
structure OperandRegs where
  clk : Word
  rate : Word
  frm : Frame
  frmB : Frame
  rxf : RxFlags
  ts : Tick
  opt : StartOpts
  tmo : Tick
deriving DecidableEq, Repr

/-- One context's copy of the result registers (10_state R23). -/
structure ResultRegs where
  status : Byte
  flag : Bool
  tim : Timings
  rxf : ReceivedFrame
  val : Word
deriving DecidableEq, Repr

/-! ### Driver State -/

/-- The receive queue (10_state R27 to R31). -/
structure RxQueue where
  buf : Vector ReceivedFrame 16
  head : BitVec 4
  tail : BitVec 4
  len : BitVec 5
  ovf : Word
deriving DecidableEq, Repr

/-- A slot of the transmit mailbox tracker (10_state R32). -/
structure Slot where
  pending : Bool
  frame : Frame
deriving DecidableEq, Repr

/-- Driver State (10_state R25, R27 to R43). -/
structure Driver where
  rxq : RxQueue
  slots : Vector Slot 3
  peakMb : BitVec 2
  errCnt : Word
  txCnt : Word
  rxCnt : Word
  lastErr : BitVec 4
  activity : Bool
  loopback : Bool
  txEv : Bool
  rxEv : Bool
deriving DecidableEq, Repr

/-! ### The CAN controller -/

/-- The head record of a receive FIFO (60_exceptions R306). -/
structure RxMsg where
  ide : Bool
  rtr : Bool
  idval : BitVec 29
  dlc : BitVec 4
  wordLo : Word
  wordHi : Word
deriving DecidableEq, Repr

/-- A receive FIFO: its entries, oldest first, and its overflow flag (60_exceptions R305). Its depth is not in the spec.
Log 14. -/
structure RxFifo where
  entries : List RxMsg
  overflow : Bool
deriving DecidableEq, Repr

/-- A transmit mailbox as MBLOAD programs it, with its transmit-request bit (60_exceptions R304, 30_encoding R106). -/
structure TxMailbox where
  idval : BitVec 29
  ide : Bool
  rtr : Bool
  dlc : BitVec 4
  wordLo : Word
  wordHi : Word
  req : Bool
deriving DecidableEq, Repr

/-- Which interrupt sources are enabled: no operation enables a subset (60_exceptions R294, R308). -/
inductive IrqSources where
  | none
  | allSix
deriving DecidableEq, Repr

/-- What CTRL presents at its read ports (60_exceptions R303, R305 to R307). `abrq` holds the abort-request bits. -/
structure CtrlStatus where
  tme : BitVec 3
  rqcp : BitVec 3
  txok : BitVec 3
  abrq : BitVec 3
  fifo : Vector RxFifo 2
  initAck : Bool
  errFlag : Bool
  busOff : Bool
  lec : BitVec 4
deriving DecidableEq, Repr

/-- What CANLL has commanded of CTRL (60_exceptions R301, R302, R304, R308): `enables` counts the one-time enable
commands, `irqEn` is the set of enabled sources. Log 13. -/
structure CtrlRegs where
  mbox : Vector TxMailbox 3
  initReq : Bool
  autoBusOff : Bool
  autoWake : Bool
  lowPower : Bool
  enables : Nat
  timing : Timings
  silent : Bool
  acceptAll : Bool
  irqEn : IrqSources
deriving DecidableEq, Repr

/-- The CAN controller behind its ports (60_exceptions R300). -/
structure Ctrl where
  status : CtrlStatus
  regs : CtrlRegs
deriving DecidableEq, Repr

/-! ### Sequences and waits in progress -/

/-- The outcome of TCALC (40_timing R130). -/
inductive TimResult where
  | ok (tim : Timings)
  | invalidBitRate
  | logic
deriving DecidableEq, Repr

/-- The places of START's text where another agent may move (44_session R241). Log 17. -/
inductive StartPos where
  | acquire
  | hwEnable
  | irqOff
  | sessStop
  | reqInit
  | pollEnter (n : Nat)
  | construct
  | tcalc
  | checkTim (r : TimResult)
  | setTiming (tim : Timings)
  | sessRun
  | irqOn
  | reqExit
  | pollExit (n : Nat)
  | failExit
  | failStop
  | failReturn
  | filter
  | finish
deriving DecidableEq, Repr

/-- The places of STOP's text (44_session R250). -/
inductive StopPos where
  | acquire
  | irqOff
  | sessStop
  | lowPower
  | clearIrq
  | finish
deriving DecidableEq, Repr

/-- The part SEND and RECEIVE share: the elapsed time, the timeout test, the wait (44_session R255, R262). -/
inductive TailPos where
  | elapsed
  | check (e : Tick)
  | issueWait (e : Tick)
  | wait (ti : Tick) (budget : Tick)
deriving DecidableEq, Repr

/-- The places of SEND's text (44_session R255); `t0` is the tick read at entry. -/
inductive SendPos where
  | acquire
  | checkRunning
  | entry
  | canacc (t0 : Tick)
  | mbload (t0 : Tick)
  | loaded (t0 : Tick) (r : ResultCode)
  | tail (t0 : Tick) (p : TailPos)
deriving DecidableEq, Repr

/-- The places of RECEIVE's text (44_session R262). -/
inductive RecvPos where
  | acquire
  | checkRunning
  | entry
  | tryPop (t0 : Tick)
  | tail (t0 : Tick) (p : TailPos)
deriving DecidableEq, Repr

/-- A sequence or a stand-alone wait in progress, with the operands it read at its start (10_state R22, R47). -/
inductive Seq where
  | start (p : StartPos) (clk rate : Word) (opt : StartOpts)
  | stop (p : StopPos)
  | send (p : SendPos) (f : Frame) (timeout : Tick)
  | receive (p : RecvPos) (timeout : Tick)
  | waitTx (ti budget : Tick)
  | waitRx (ti budget : Tick)
deriving DecidableEq, Repr

/-! ### The moves of the agents -/

/-- A write of one operand register. A Frame register is written word by word (30_encoding R93); reserved bits are
dropped (R103). -/
inductive OperandWrite where
  | clk (w : Word)
  | rate (w : Word)
  | frm (n : Fin 4) (w : Word)
  | frmB (n : Fin 4) (w : Word)
  | rxf (w : Word)
  | ts (w : Word)
  | opt (w : Word)
  | tmo (w : Word)
deriving DecidableEq, Repr

/-- A standing interrupt cause by the handler it leads to (60_exceptions R292): a request-completed flag, a FIFO that is
not empty, the error-interrupt flag (which the three status sources share). -/
inductive Cause where
  | txc (i : Fin 3)
  | rx (k : Fin 2)
  | status
deriving DecidableEq, Repr

/-- A move of CTRL (60_exceptions R309). Log 12. -/
inductive CtrlMove where
  /-- Slot `i` completes, with its transmit-OK flag (CP1). -/
  | txDone (i : Fin 3) (ok : Bool)
  /-- Slot `i` is aborted; CTRL may or may not flag a failed completion (CP5). -/
  | abortDone (i : Fin 3) (flagged : Bool)
  /-- A frame arrives in FIFO `k`. -/
  | rxDeliver (k : Fin 2) (m : RxMsg)
  /-- The overflow flag of FIFO `k` changes (N8). -/
  | rxOverflow (k : Fin 2) (b : Bool)
  /-- The bus-off flag changes; its rise sets the error-interrupt flag. -/
  | busOff (b : Bool)
  /-- The last-error-code field changes, which sets the error-interrupt flag. -/
  | lec (c : BitVec 4)
  /-- An error condition sets the error-interrupt flag. -/
  | errorCond
  /-- CTRL acknowledges, or does not (CP7). -/
  | initAck (b : Bool)
  /-- While no session runs CTRL may present anything (U13, U14, U28). -/
  | redraw (st : CtrlStatus)
deriving DecidableEq, Repr

/-- A move of an agent (00_scope R18). A move that is not enabled does nothing. Log 1, log 2. -/
inductive Move where
  /-- An agent writes an operand register. -/
  | load (a : Agent) (w : OperandWrite)
  /-- An agent writes the command word `CMD` (30_encoding R97). -/
  | cmd (a : Agent) (w : Word)
  /-- Thread `t` carries on its sequence or wait. -/
  | run (t : Nat) (k : Wake)
  /-- CTRL moves. -/
  | ctrl (m : CtrlMove)
  /-- The tick clock advances by `d`, which is not 0. -/
  | tick (d : Tick)
  /-- The interrupt is taken. -/
  | irqEnter
  /-- The dispatcher serves a standing cause. -/
  | dispatch (c : Cause)
  /-- The dispatcher returns. -/
  | irqLeave
deriving DecidableEq, Repr

/-! ### The state -/

/-- The state of the machine. `irq` is the interrupt entry in progress with the tick read at entry (60_exceptions R292).
`agent`, `wake`, `freeIdx` and `sched` are the model's own fields: who issues, which completion a wait tries, how many
free values were drawn, and the agents' next moves. -/
structure State where
  sess : Session
  hwEnabled : Bool
  mtx : Option Nat
  ops : OperandRegs
  resT : ResultRegs
  resI : ResultRegs
  drv : Driver
  ctrl : Ctrl
  now : Tick
  irq : Option Tick
  seqs : List (Nat × Seq)
  agent : Agent
  wake : Wake
  freeIdx : Nat
  sched : List Move
deriving DecidableEq, Repr

/-! ### Reset (70_reset R331) -/

/-- A frame of zeros. -/
def zeroFrame : Frame := ⟨0, 0, Vector.replicate 8 0⟩

/-- A received frame of zeros. -/
def zeroReceived : ReceivedFrame := ⟨zeroFrame, false, false, 0⟩

/-- Timings of zeros. -/
def zeroTimings : Timings := ⟨0, 0, 0, 0⟩

/-- The operand registers at power-on, DESIGN CHOICE: the spec says unspecified (10_state R22). Log 4. -/
def OperandRegs.reset : OperandRegs :=
  { clk := 0, rate := 0, frm := zeroFrame, frmB := zeroFrame, rxf := ⟨false, false⟩, ts := 0,
    opt := ⟨false, false⟩, tmo := 0 }

/-- The result registers at power-on, DESIGN CHOICE: the spec says unspecified (10_state R23). Log 4. -/
def ResultRegs.reset : ResultRegs :=
  { status := 0, flag := false, tim := zeroTimings, rxf := zeroReceived, val := 0 }

/-- What the model stores while Driver State does not exist (10_state R26), DESIGN CHOICE. Log 3. -/
def Driver.absent : Driver :=
  { rxq := { buf := Vector.replicate 16 zeroReceived, head := 0, tail := 0, len := 0, ovf := 0 },
    slots := Vector.replicate 3 ⟨false, zeroFrame⟩, peakMb := 0, errCnt := 0, txCnt := 0, rxCnt := 0, lastErr := 0,
    activity := false, loopback := false, txEv := false, rxEv := false }

/-- CTRL at power-on, DESIGN CHOICE of a clean controller: the spec does not give it (70_reset R331). Log 11. -/
def Ctrl.reset : Ctrl :=
  { status :=
      { tme := 0b111, rqcp := 0, txok := 0, abrq := 0, fifo := Vector.replicate 2 ⟨[], false⟩, initAck := false,
        errFlag := false, busOff := false, lec := 0 },
    regs :=
      { mbox := Vector.replicate 3 ⟨0, false, false, 0, 0, 0, false⟩, initReq := false, autoBusOff := false,
        autoWake := false, lowPower := false, enables := 0, timing := zeroTimings, silent := false,
        acceptAll := false, irqEn := .none } }

/-- The machine at power-on (70_reset R331): Stopped, never enabled, the lock free, thread context, no sequence. -/
def State.reset : State :=
  { sess := .stopped, hwEnabled := false, mtx := none, ops := OperandRegs.reset, resT := ResultRegs.reset,
    resI := ResultRegs.reset, drv := Driver.absent, ctrl := Ctrl.reset, now := 0, irq := none, seqs := [],
    agent := .thread 0, wake := .expired, freeIdx := 0, sched := [] }

end Sys2Proof.Machine
end

