-- ==== Sys2Proof/Machine/Flags.lean ====
section
/-! DEFINITION. Counters, ring indices, port bits, and the numeric codes of `R_STATUS`. -/

namespace Sys2Proof.Machine

/-- `sat_inc_32` (00_scope R13, 10_state R31). -/
def satInc (v : Word) : Word := if v = BitVec.allOnes 32 then v else v + 1

/-- A wrapping counter's next value (10_state R35 to R37): one more, and after `2^32` events a free value
(93_implementation_defined U5). Log 7. -/
def countUp (free v : Word) : Word := if v = BitVec.allOnes 32 then free else v + 1

/-- `ring_inc` (00_scope R13): 15 is followed by 0. -/
def ringInc (i : BitVec 4) : BitVec 4 := if i.toNat + 1 < Config.queueCap then i + 1 else 0

/-- Bit `i` of a per-slot port (60_exceptions R303). -/
def portBit (v : BitVec 3) (i : Fin 3) : Bool := v.getLsbD i.val

/-- Set bit `i` of a per-slot port to `b`. -/
def setPortBit (v : BitVec 3) (i : Fin 3) (b : Bool) : BitVec 3 :=
  BitVec.ofBool (if i = 2 then b else v.getLsbD 2) ++ BitVec.ofBool (if i = 1 then b else v.getLsbD 1)
    ++ BitVec.ofBool (if i = 0 then b else v.getLsbD 0)

/-- The code of a result (60_exceptions R281). -/
def ResultCode.code : ResultCode → Byte
  | .ok => 0x00
  | .invalidBitRate => 0x01
  | .initModeNotEntered => 0x02
  | .initModeNotCleared => 0x03
  | .unsupportedFrame => 0x04
  | .logic => 0x05
  | .noFreeSlot => 0x10
  | .notSent => 0x11
  | .noData => 0x12
  | .waitTimeout => 0x13

/-- The code of a fault (60_exceptions R283). -/
def OpFault.code : OpFault → Byte
  | .illegalOp => 0xF0
  | .context => 0xF1
  | .notRunning => 0xF2
  | .badIndex => 0xF3
  | .emptyPop => 0xF4
  | .rxDlc => 0xF5
  | .rxEmpty => 0xF6

end Sys2Proof.Machine
end

