-- ==== Sys2Proof/Machine/Operands.lean ====
section
/-! DEFINITION. The operand forms: field extraction from a frame (30_encoding R92), the record layouts (R93 to R95), the
fields CANLL exchanges with CTRL (R106, R107, 20_memory R64), and loading an operand register (10_state R22). -/

namespace Sys2Proof

/-- Byte `k` of a word, byte 0 in bits 7:0 (20_memory R64). -/
def wordByte (w : Word) (k : Nat) : Byte := w.extractLsb' (8 * k) 8

/-- Four bytes as a little-endian word: `b0` in bits 7:0 (20_memory R64). -/
def packWord (b0 b1 b2 b3 : Byte) : Word := b3 ++ b2 ++ b1 ++ b0

/-! ### Field extraction (30_encoding R92) -/

/-- `ext(f)`: extended format. -/
def Frame.ext (f : Frame) : Bool := f.id.getLsbD 31

/-- `rtr(f)`: remote-transmission-request. -/
def Frame.rtr (f : Frame) : Bool := f.id.getLsbD 30

/-- `err(f)`: error frame. -/
def Frame.err (f : Frame) : Bool := f.id.getLsbD 29

/-- The low eleven identifier bits, zero-extended to 29. -/
def stdIdent (id : Word) : BitVec 29 := 0#18 ++ id.extractLsb' 0 11

/-- `mid(f)`: the format-masked identifier. -/
def Frame.mid (f : Frame) : BitVec 29 := if f.ext then f.id.extractLsb' 0 29 else stdIdent f.id

/-- `arb11(f)`: the leading eleven identifier bits. -/
def Frame.arb11 (f : Frame) : BitVec 11 := if f.ext then f.id.extractLsb' 18 11 else f.id.extractLsb' 0 11

/-- The shape MBLOAD refuses: an error frame or a data length code above 8 (41_priority R171). -/
def Frame.unsupported (f : Frame) : Bool := f.err || decide (Config.maxDlc < f.dlc.toNat)

/-- The 32-bit arbitration key (41_priority R165). -/
def Frame.key (f : Frame) : Word :=
  if f.ext then f.arb11 ++ 1#1 ++ 1#1 ++ f.id.extractLsb' 0 18 ++ BitVec.ofBool f.rtr
  else f.arb11 ++ BitVec.ofBool f.rtr ++ 0#1 ++ 0#18 ++ 0#1

/-! ### Record layouts -/

/-- `word_lo`, bytes 0 to 3 (20_memory R64). -/
def Frame.wordLo (f : Frame) : Word := packWord f.data[0] f.data[1] f.data[2] f.data[3]

/-- `word_hi`, bytes 4 to 7 (20_memory R64). -/
def Frame.wordHi (f : Frame) : Word := packWord f.data[4] f.data[5] f.data[6] f.data[7]

/-- The eight payload bytes of two data words (20_memory R64). -/
def unpackWords (lo hi : Word) : Vector Byte 8 :=
  #v[wordByte lo 0, wordByte lo 1, wordByte lo 2, wordByte lo 3,
     wordByte hi 0, wordByte hi 1, wordByte hi 2, wordByte hi 3]

/-- The Frame of four words, reserved bits of W1 ignored (30_encoding R93, R103). -/
def Frame.ofWords (w0 w1 w2 w3 : Word) : Frame := ⟨w0, w1.extractLsb' 0 4, unpackWords w2 w3⟩

/-- The four words of a Frame, reserved bits zero (30_encoding R93). -/
def Frame.words (f : Frame) : List Word := [f.id, 0#28 ++ f.dlc, f.wordLo, f.wordHi]

/-- Word W4 of a ReceivedFrame (30_encoding R94). -/
def flagsWord (loopback failed : Bool) : Word := 0#30 ++ BitVec.ofBool failed ++ BitVec.ofBool loopback

/-- The six words of a ReceivedFrame (30_encoding R94). -/
def ReceivedFrame.words (e : ReceivedFrame) : List Word := e.frame.words ++ [flagsWord e.loopback e.failed, e.ts]

/-- `R_TIM` as one word (30_encoding R95). -/
def Timings.word (t : Timings) : Word := 0#1 ++ t.sjw ++ t.bs2 ++ 0#3 ++ t.bs1 ++ 0#5 ++ t.prescaler

/-- Frame equality of the source's tests: bytes at and above `dlc` excluded (30_encoding R96). -/
def Frame.same (f g : Frame) : Bool :=
  f.id == g.id && f.dlc == g.dlc && (List.finRange 8).all fun k => decide (f.dlc.toNat ≤ k.val) || f.data[k] == g.data[k]

end Sys2Proof

namespace Sys2Proof.Machine

/-- The mailbox contents MBLOAD hands to CTRL, the transmit request set (30_encoding R106, 60_exceptions R304). -/
def mailboxOf (f : Frame) : TxMailbox :=
  { idval := f.mid, ide := f.ext, rtr := f.rtr, dlc := f.dlc, wordLo := f.wordLo, wordHi := f.wordHi, req := true }

/-- `decode(m)`: the Frame CANLL builds from a FIFO's head record, its ERR bit zero (30_encoding R107, 43 R217). DESIGN
CHOICE: `idval` is copied as CTRL presents it, its bits 28:11 not masked in the standard format, where R107 has them not
significant. Log 12. -/
def frameOfMsg (m : RxMsg) : Frame :=
  { id := BitVec.ofBool m.ide ++ BitVec.ofBool m.rtr ++ 0#1 ++ m.idval, dlc := m.dlc, data := unpackWords m.wordLo m.wordHi }

/-- Write word `n` of a Frame register (30_encoding R93, reserved bits dropped R103). -/
def setFrameWord (f : Frame) (n : Fin 4) (w : Word) : Frame :=
  match n with
  | 0 => { f with id := w }
  | 1 => { f with dlc := w.extractLsb' 0 4 }
  | 2 => { f with data := unpackWords w f.wordHi }
  | 3 => { f with data := unpackWords f.wordLo w }

/-- An agent loads an operand register (10_state R22, 30_encoding R97; `A_RXF` and `A_OPT` keep bits 1:0 only, R22,
44_session R241). -/
def OperandRegs.load (r : OperandRegs) (w : OperandWrite) : OperandRegs :=
  match w with
  | .clk v => { r with clk := v }
  | .rate v => { r with rate := v }
  | .frm n v => { r with frm := setFrameWord r.frm n v }
  | .frmB n v => { r with frmB := setFrameWord r.frmB n v }
  | .rxf v => { r with rxf := ⟨v.getLsbD 0, v.getLsbD 1⟩ }
  | .ts v => { r with ts := v }
  | .opt v => { r with opt := ⟨v.getLsbD 0, v.getLsbD 1⟩ }
  | .tmo v => { r with tmo := v }

/-- The ReceivedFrame QPUSH assembles from `A_FRM`, `A_RXF` and `A_TS` (42_receive R191). -/
def OperandRegs.entry (r : OperandRegs) : ReceivedFrame :=
  { frame := r.frm, loopback := r.rxf.loopback, failed := r.rxf.failed, ts := r.ts }

/-- EVTXC's slot index as a slot that exists, or none (43_event_handlers R211). -/
def slotIndex (idx : BitVec 2) : Option (Fin 3) := if h : idx.toNat < 3 then some ⟨idx.toNat, h⟩ else none

/-- EVRXA's FIFO index as a FIFO that exists, or none (43_event_handlers R214). -/
def fifoIndex (idx : BitVec 2) : Option (Fin 2) := if h : idx.toNat < 2 then some ⟨idx.toNat, h⟩ else none

end Sys2Proof.Machine
end

