-- ==== Sys2Proof/Machine/Ports.lean ====
section
/-! DEFINITION. The command ports of CTRL (60_exceptions R301 to R308), one operation each. Log 13 says which of them only
record the command. -/

namespace Sys2Proof.Machine

/-- `CTRL.req_init(b)` (60_exceptions R301): `b = 1` also leaves low-power mode and sets automatic recovery and wake-up
(92_eei_decisions D45). -/
def Ctrl.requestInit (b : Bool) (c : Ctrl) : Ctrl :=
  if b then
    { c with regs := { c.regs with initReq := true, lowPower := false, autoBusOff := true, autoWake := true } }
  else { c with regs := { c.regs with initReq := false } }

/-- `CTRL.low_power_reset()` (60_exceptions R301). -/
def Ctrl.lowPowerReset (c : Ctrl) : Ctrl := { c with regs := { c.regs with lowPower := true } }

/-- `CTRL.hw_enable_reset()` (60_exceptions R301). -/
def Ctrl.hwEnableReset (c : Ctrl) : Ctrl := { c with regs := { c.regs with enables := c.regs.enables + 1 } }

/-- `CTRL.set_timing(tim, silent)` (60_exceptions R302). DESIGN CHOICE: the command is recorded outside initialization
mode too, where the spec calls it illegal and gives it no effect. Log 13. -/
def Ctrl.setTiming (tim : Timings) (silent : Bool) (c : Ctrl) : Ctrl :=
  { c with regs := { c.regs with timing := tim, silent := silent } }

/-- `CTRL.filter_accept_all()` (60_exceptions R308). -/
def Ctrl.filterAcceptAll (c : Ctrl) : Ctrl := { c with regs := { c.regs with acceptAll := true } }

/-- `CTRL.irq_enable(set)` (60_exceptions R308). -/
def Ctrl.irqEnable (set : IrqSources) (c : Ctrl) : Ctrl := { c with regs := { c.regs with irqEn := set } }

/-- `CTRL.clear_pending_irq()` (60_exceptions R308): every pending cause CTRL holds is cleared (10_state R46), the
request-completed flags, both FIFOs' pending counts, the error flag. Log 13. -/
def Ctrl.clearPendingIrq (c : Ctrl) : Ctrl :=
  { c with status := { c.status with
      rqcp := 0
      errFlag := false
      fifo := #v[{ c.status.fifo[0] with entries := [] }, { c.status.fifo[1] with entries := [] }] } }

/-- `CTRL.tx_program(i, …)` (60_exceptions R304): the mailbox is written, its transmit request set, and slot `i` reports
busy (R309 CP1). -/
def Ctrl.txProgram (i : Fin 3) (f : Frame) (c : Ctrl) : Ctrl :=
  { status := { c.status with tme := setPortBit c.status.tme i false },
    regs := { c.regs with mbox := c.regs.mbox.set i (mailboxOf f) } }

/-- `CTRL.abort_all()` (60_exceptions R303): the abort-request bit of all three slots. -/
def Ctrl.abortAll (c : Ctrl) : Ctrl := { c with status := { c.status with abrq := 0b111 } }

/-- `CTRL.clear_error_flag()` (60_exceptions R307). -/
def Ctrl.clearErrorFlag (c : Ctrl) : Ctrl := { c with status := { c.status with errFlag := false } }

/-- `CTRL.ack_rqcp(i)` (60_exceptions R303). -/
def Ctrl.ackRqcp (i : Fin 3) (c : Ctrl) : Ctrl :=
  { c with status := { c.status with rqcp := setPortBit c.status.rqcp i false } }

/-- `CTRL.rx_release(k)` (60_exceptions R305): the head entry of FIFO `k` is gone. -/
def Ctrl.rxRelease (k : Fin 2) (c : Ctrl) : Ctrl :=
  { c with status := { c.status with
      fifo := c.status.fifo.set k { c.status.fifo[k] with entries := c.status.fifo[k].entries.tail } } }

end Sys2Proof.Machine
end

