-- ==== Sys2Proof/Machine/Ops.lean ====
section
/-! DEFINITION. The named operations over the state: the checks every operation makes, result and fault delivery, the
lock, the sequences in progress, the receive queue, Driver State, the waits, and taking the interrupt. -/

namespace Sys2Proof.Machine

open Host (Outcome)

/-! ### Contexts (30_encoding R100, 60_exceptions R290) -/

/-- The context an operation belongs to. -/
inductive OpContext where
  | any
  | thread
  | interrupt
deriving DecidableEq, Repr

/-- Column "ctx" of 30_encoding R100. -/
def opContext : Instr → OpContext
  | .tcalc => .any
  | .pricmp => .any
  | .qpush => .interrupt
  | .evtxc _ _ => .interrupt
  | .evrxa _ => .interrupt
  | .evsts => .interrupt
  | .canacc => .thread
  | .mbload => .thread
  | .qpop => .thread
  | .qreset => .thread
  | .qlen => .thread
  | .start => .thread
  | .stop => .thread
  | .send => .thread
  | .receive => .thread
  | .waittx => .thread
  | .waitrx => .thread
  | .rderr => .thread
  | .rdovf => .thread
  | .rdtxc => .thread
  | .rdrxc => .thread
  | .rdlec => .thread
  | .rdpeak => .thread
  | .rdact => .thread

/-- The operations whose session state is checked before their rule runs (30_encoding R99, column "run" of R100, 10_state
R26). SEND and RECEIVE need a session too: theirs is checked "after taking `mtx`" (60_exceptions R283, 44_session R255,
R262), in `sendMove` and `receiveMove`. Log 18. -/
def checksSession : Instr → Bool
  | .tcalc => false
  | .pricmp => false
  | .start => false
  | .stop => false
  | .send => false
  | .receive => false
  | .canacc => true
  | .mbload => true
  | .qpush => true
  | .qpop => true
  | .qreset => true
  | .qlen => true
  | .evtxc _ _ => true
  | .evrxa _ => true
  | .evsts => true
  | .waittx => true
  | .waitrx => true
  | .rderr => true
  | .rdovf => true
  | .rdtxc => true
  | .rdrxc => true
  | .rdlec => true
  | .rdpeak => true
  | .rdact => true

/-- Whether an agent's context is the one asked for. -/
def admits : OpContext → Agent → Bool
  | .any, _ => true
  | .thread, .thread _ => true
  | .thread, .interrupt => false
  | .interrupt, .thread _ => false
  | .interrupt, .interrupt => true

/-! ### Results and faults -/

/-- The issuing context's copy of the result registers (10_state R23). -/
def State.res (s : State) : ResultRegs :=
  match s.agent with
  | .thread _ => s.resT
  | .interrupt => s.resI

/-- Write the issuing context's copy of the result registers; the other copy is untouched (10_state R23). -/
def State.setRes (r : ResultRegs) (s : State) : State :=
  { s with
    resT := (match s.agent with | .thread _ => r | .interrupt => s.resT)
    resI := (match s.agent with | .thread _ => s.resI | .interrupt => r) }

/-- Write `R_STATUS`. -/
def State.setStatus (c : Byte) (s : State) : State := s.setRes { s.res with status := c }

/-- An operation ends with a result code (60_exceptions R280, R281). -/
def finish (c : ResultCode) (s : State) : Outcome State Fault Refusal := .next (s.setStatus c.code)

/-- An operation ends with a value in `R_FLAG` and `OK`. -/
def finishFlag (b : Bool) (s : State) : Outcome State Fault Refusal :=
  .next (s.setRes { s.res with status := ResultCode.ok.code, flag := b })

/-- An operation ends with a value in `R_VAL` and `OK`. -/
def finishVal (v : Word) (s : State) : Outcome State Fault Refusal :=
  .next (s.setRes { s.res with status := ResultCode.ok.code, val := v })

/-- TAKING A FAULT (60_exceptions R284): nothing of CANLL changes and CTRL is commanded nothing; `R_STATUS` of the issuing
context receives the code; the agent goes on. There is no vector, nothing saved, and no return. Log 9. -/
def raiseFault (f : OpFault) (s : State) : Outcome State Fault Refusal := .next (s.setStatus f.code)

/-- The checks before an operation's rule, in their order: context, then session (30_encoding R99, 60_exceptions R285). -/
def guardOp (i : Instr) (s : State) (k : Outcome State Fault Refusal) : Outcome State Fault Refusal :=
  if admits (opContext i) s.agent = false then raiseFault .context s
  else if checksSession i = true ∧ s.sess = .stopped then raiseFault .notRunning s
  else k

/-! ### Sequences in progress -/

/-- The sequence of thread `t`. -/
def seqGet (t : Nat) : List (Nat × Seq) → Option Seq
  | [] => none
  | (u, q) :: l => if u = t then some q else seqGet t l

/-- Record thread `t`'s sequence; the list stays sorted by thread, one entry a thread. -/
def seqPut (t : Nat) (q : Seq) : List (Nat × Seq) → List (Nat × Seq)
  | [] => [(t, q)]
  | (u, r) :: l => if t < u then (t, q) :: (u, r) :: l else if u = t then (t, q) :: l else (u, r) :: seqPut t q l

/-- Thread `t` has no sequence any more. -/
def seqDrop (t : Nat) : List (Nat × Seq) → List (Nat × Seq)
  | [] => []
  | (u, q) :: l => if u = t then seqDrop t l else (u, q) :: seqDrop t l

/-- A thread number above every thread with a sequence. -/
def freshThread : List (Nat × Seq) → Nat
  | [] => 0
  | (u, _) :: l => max (u + 1) (freshThread l)

/-- The issuing agent's sequence; the dispatcher has none. -/
def State.curSeq (s : State) : Option Seq :=
  match s.agent with
  | .thread t => seqGet t s.seqs
  | .interrupt => none

/-- The issuing thread goes to a place of its sequence. -/
def State.putSeq (q : Seq) (s : State) : State :=
  { s with seqs := (match s.agent with | .thread t => seqPut t q s.seqs | .interrupt => s.seqs) }

/-- The issuing thread's sequence is over. -/
def State.dropSeq (s : State) : State :=
  { s with seqs := (match s.agent with | .thread t => seqDrop t s.seqs | .interrupt => s.seqs) }

/-- Whether START or STOP stands past its `acquire(mtx)` (44_session R241, R250). -/
def Seq.changesSession : Seq → Bool
  | .start p _ _ _ => decide (p ≠ .acquire)
  | .stop p => decide (p ≠ .acquire)
  | .send _ _ _ => false
  | .receive _ _ => false
  | .waitTx _ _ => false
  | .waitRx _ _ => false

/-- Interrupt context cannot come: START or STOP is between its steps with every source off (20_memory R72 a, 44_session
R243, R247, R251). -/
def State.silenced (s : State) : Bool :=
  decide (s.ctrl.regs.irqEn = .none) && s.seqs.any fun e => e.2.changesSession

/-- Which instruction a sequence carries on. -/
def Seq.instr : Seq → Instr
  | .start _ _ _ _ => .start
  | .stop _ => .stop
  | .send _ _ _ => .send
  | .receive _ _ => .receive
  | .waitTx _ _ => .waittx
  | .waitRx _ _ => .waitrx

/-! ### The lock (10_state R45, 20_memory R70) -/

/-- The thread that issues. -/
def State.thread (s : State) : Nat :=
  match s.agent with
  | .thread t => t
  | .interrupt => 0

/-- `acquire(mtx)`: take the lock and go to `q` if the lock is free; otherwise stay. The hand-off order is open. -/
def State.acquire (q : Seq) (s : State) : State :=
  if s.mtx = none then ({ s with mtx := some s.thread }).putSeq q else s

/-- `release(mtx)` and the return of a sequence with a code in `R_STATUS` (30_encoding R97). -/
def State.returnWith (c : Byte) (s : State) : State := ({ s with mtx := none }).dropSeq.setStatus c

/-! ### Free values -/

/-- One more free value was drawn. Log 27. -/
def State.drawn (s : State) : State := { s with freeIdx := s.freeIdx + 1 }

/-! ### The receive queue (42_receive_queue) -/

/-- `q_push(e)` (42_receive R191). -/
def RxQueue.push (e : ReceivedFrame) (q : RxQueue) : RxQueue :=
  let buf := q.buf.set q.head.toNat e q.head.isLt
  let head := ringInc q.head
  let len := q.len + 1
  if Config.queueCap < len.toNat then
    { buf := buf, head := head, tail := ringInc q.tail, len := BitVec.ofNat 5 Config.queueCap, ovf := satInc q.ovf }
  else { buf := buf, head := head, tail := q.tail, len := len, ovf := q.ovf }

/-- The entry QPOP returns: `buf[tail]` (42_receive R193). -/
def RxQueue.oldest (q : RxQueue) : ReceivedFrame := q.buf[q.tail.toNat]'q.tail.isLt

/-- What QPOP leaves (42_receive R193): the storage, `head` and `ovf` as they were. -/
def RxQueue.popped (q : RxQueue) : RxQueue := { q with tail := ringInc q.tail, len := q.len - 1 }

/-- QRESET (42_receive R195): indices, length and overflow counter, not the storage. -/
def RxQueue.cleared (q : RxQueue) : RxQueue := { q with head := 0, tail := 0, len := 0, ovf := 0 }

/-- A hardware overflow is counted (43_event_handlers R216). -/
def RxQueue.countOverflow (q : RxQueue) : RxQueue := { q with ovf := satInc q.ovf }

/-! ### Driver State -/

/-- Driver State as START constructs it at the `n`-th draw (44_session R244, 10_state R48): every counter, index, flag,
latch and pending bit 0, the storage free. -/
def Driver.fresh (n : Nat) (loopback : Bool) : Driver :=
  { rxq :=
      { buf := Vector.ofFn fun i => Config.freeEntry n i.val, head := 0, tail := 0, len := 0, ovf := 0 },
    slots := Vector.ofFn fun i => { pending := false, frame := Config.freeSlotFrame n i.val },
    peakMb := 0, errCnt := 0, txCnt := 0, rxCnt := 0, lastErr := 0, activity := false, loopback := loopback,
    txEv := false, rxEv := false }

/-- `handler_push(e)` (43_event_handlers R225): push, signal `rx_ev`, count real traffic. `free` is the value `rx_cnt`
takes after `2^32` events. -/
def Driver.push (free : Word) (e : ReceivedFrame) (d : Driver) : Driver :=
  if e.loopback = false ∧ e.failed = false then
    { d with rxq := d.rxq.push e, rxEv := true, rxCnt := countUp free d.rxCnt, activity := true }
  else { d with rxq := d.rxq.push e, rxEv := true }

/-- `slot[i].pending <- 0`; the frame is left as it is (43_event_handlers R213 f). -/
def Driver.clearPending (i : Fin 3) (d : Driver) : Driver :=
  { d with slots := d.slots.set i { d.slots[i] with pending := false } }

/-- Driver State is gone (70_reset R333, R334). Log 3. -/
def State.discardDriver (s : State) : State := { s with sess := .stopped, drv := Driver.absent }

/-! ### The waits (43_event_handlers R228, R229) -/

/-- How a wait's move ends. -/
inductive WaitEnd where
  | blocked
  | signalled
  | expired
  | spurious
deriving DecidableEq, Repr

/-- One move of a wait issued at `ti`: the completion it tries happens if R228 enables it, and otherwise it is still
blocked. Log 22. -/
def waitEnd (latch : Bool) (now ti budget : Tick) : Wake → WaitEnd
  | .signalled => if latch then .signalled else .blocked
  | .expired => if budget ≤ now - ti then .expired else .blocked
  | .spurious => .spurious

/-- What the shared part of SEND and RECEIVE does next (44_session R255, R262). -/
inductive TailStep where
  | stay
  | giveUp
  | goto (p : TailPos)
  | again (consume : Bool)
deriving DecidableEq, Repr

/-- The shared part of SEND and RECEIVE, line by line: `e <- (now - t0) mod 2^32`, the timeout test, the wait on the
remaining budget, whose result is not looked at (44_session R255, R258, R262). -/
def tailStep (timeout t0 now : Tick) (latch : Bool) (k : Wake) : TailPos → TailStep
  | .elapsed => .goto (.check (now - t0))
  | .check e => if timeout ≤ e then .giveUp else .goto (.issueWait e)
  | .issueWait e => .goto (.wait now (timeout - e))
  | .wait ti budget =>
    match waitEnd latch now ti budget k with
    | .blocked => .stay
    | .signalled => .again true
    | .expired => .again false
    | .spurious => .again false

/-! ### The interrupt (60_exceptions R290 to R295) -/

/-- Whether a cause stands and its source is enabled; CTRL raises none in initialization mode (60_exceptions R292, R309
CP3). -/
def Ctrl.raised (c : Ctrl) (x : Cause) : Bool :=
  decide (c.regs.irqEn = .allSix) && !c.status.initAck &&
    match x with
    | .txc i => portBit c.status.rqcp i
    | .rx k => !c.status.fifo[k].entries.isEmpty
    | .status => c.status.errFlag

/-- The interrupt line: some cause stands (60_exceptions R291). -/
def Ctrl.line (c : Ctrl) : Bool :=
  c.raised (.txc 0) || c.raised (.txc 1) || c.raised (.txc 2) || c.raised (.rx 0) || c.raised (.rx 1)
    || c.raised .status

/-- TAKING THE INTERRUPT (60_exceptions R290, R295, DP1): nothing of CANLL's is saved or changed; the dispatcher reads
`now`. -/
def State.irqEnter (s : State) : State :=
  if s.irq = none ∧ s.sess = .running ∧ s.ctrl.line = true then { s with irq := some s.now } else s

/-- RETURN FROM THE INTERRUPT (60_exceptions R292 DP4, R295): the pass ends when no cause stands; nothing is restored. -/
def State.irqLeave (s : State) : State := if s.ctrl.line = false then { s with irq := none } else s

end Sys2Proof.Machine
end

