-- ==== Sys2Proof/Machine/Arbiter.lean ====
section
/-! DEFINITION. The priority arbiter unit: PRICMP, CANACC, MBLOAD (41_priority_arbiter). -/

namespace Sys2Proof.Machine

open Host (Outcome)

/-- `higherPriority(a, b)`, in the source's order of steps (41_priority R161 to R164). -/
def higherPriority (a b : Frame) : Bool :=
  if a.ext ≠ b.ext then
    if a.arb11 ≠ b.arb11 then decide (a.arb11 < b.arb11) else b.ext
  else if a.mid = b.mid ∧ a.rtr ≠ b.rtr then b.rtr
  else decide (a.mid < b.mid)

/-- PRICMP (41_priority R161). -/
def execPricmp (s : State) : Outcome State Fault Refusal :=
  guardOp .pricmp s (finishFlag (higherPriority s.ops.frm s.ops.frmB) s)

/-- Whether a slot's pending frame blocks the candidate (41_priority R170). -/
def blocks (f : Frame) (sl : Slot) : Bool := sl.pending && !higherPriority f sl.frame

/-- `canAccept(f)`: the two fast paths on CTRL's flags, then the mixed path on the tracker (41_priority R168 to R170). -/
def canAccept (f : Frame) (tme : BitVec 3) (slots : Vector Slot 3) : Bool :=
  if tme = 0b111#3 then true
  else if tme = 0b000#3 then false
  else !(blocks f slots[0] || blocks f slots[1] || blocks f slots[2])

/-- CANACC (41_priority R168). -/
def execCanacc (s : State) : Outcome State Fault Refusal :=
  guardOp .canacc s (finishFlag (canAccept s.ops.frm s.ctrl.status.tme s.drv.slots) s)

/-- The lowest slot CTRL reports free (41_priority R173). -/
def firstFree (tme : BitVec 3) : Option (Fin 3) :=
  if portBit tme 0 then some 0 else if portBit tme 1 then some 1 else if portBit tme 2 then some 2 else none

/-- Slot `i` is loaded: CTRL programmed, the tracker set pending, the statistic raised (41_priority R172 to R174). -/
def loadSlot (i : Fin 3) (f : Frame) (s : State) : State :=
  { s with
    ctrl := s.ctrl.txProgram i f
    drv :=
      { s.drv with
        slots := s.drv.slots.set i { pending := true, frame := f }
        peakMb := if s.drv.peakMb.toNat < i.val then BitVec.ofNat 2 i.val else s.drv.peakMb } }

/-- `loadMailbox(f)`: the shape test first, then the slot search; no second priority check (41_priority R171 to R176,
60_exceptions R285). -/
def loadMailbox (f : Frame) (s : State) : ResultCode × State :=
  if f.unsupported then (.unsupportedFrame, s)
  else
    match firstFree s.ctrl.status.tme with
    | none => (.noFreeSlot, s)
    | some i => (.ok, loadSlot i f s)

/-- MBLOAD (41_priority R172). -/
def execMbload (s : State) : Outcome State Fault Refusal :=
  guardOp .mbload s (finish (loadMailbox s.ops.frm s).1 (loadMailbox s.ops.frm s).2)

end Sys2Proof.Machine
end

