-- ==== Sys2Proof/Machine/Diag.lean ====
section
/-! DEFINITION. The seven diagnostic reads (44_session R269 to R276). -/

namespace Sys2Proof.Machine

open Host (Outcome)

/-- RDERR (44_session R270). -/
def execRderr (s : State) : Outcome State Fault Refusal := guardOp .rderr s (finishVal s.drv.errCnt s)

/-- RDOVF (44_session R271). -/
def execRdovf (s : State) : Outcome State Fault Refusal := guardOp .rdovf s (finishVal s.drv.rxq.ovf s)

/-- RDTXC (44_session R272). -/
def execRdtxc (s : State) : Outcome State Fault Refusal := guardOp .rdtxc s (finishVal s.drv.txCnt s)

/-- RDRXC (44_session R273). -/
def execRdrxc (s : State) : Outcome State Fault Refusal := guardOp .rdrxc s (finishVal s.drv.rxCnt s)

/-- RDLEC (44_session R274). -/
def execRdlec (s : State) : Outcome State Fault Refusal := guardOp .rdlec s (finishVal (s.drv.lastErr.setWidth 32) s)

/-- RDPEAK (44_session R275). -/
def execRdpeak (s : State) : Outcome State Fault Refusal := guardOp .rdpeak s (finishVal (s.drv.peakMb.setWidth 32) s)

/-- RDACT: read and clear in one step (44_session R276). -/
def execRdact (s : State) : Outcome State Fault Refusal :=
  guardOp .rdact s (finishFlag s.drv.activity { s with drv := { s.drv with activity := false } })

end Sys2Proof.Machine
end

