-- ==== Sys2Proof/Machine/Handlers.lean ====
section
/-! DEFINITION. The three event handlers: EVTXC, EVRXA, EVSTS (43_event_handlers). -/

namespace Sys2Proof.Machine

open Host (Outcome)

/-- The statistics of a reported success (43_event_handlers R212, R213 a, b). -/
def Driver.countTx (free : Word) (ok : Bool) (d : Driver) : Driver :=
  if ok then { d with activity := true, txCnt := countUp free d.txCnt } else d

/-- The loopback report of slot `i`, if the option is set and the slot was pending (43_event_handlers R212, R220). -/
def Driver.report (free : Word) (i : Fin 3) (failed : Bool) (ts : Tick) (d : Driver) : Driver :=
  if d.loopback = true ∧ d.slots[i].pending = true then
    d.push free { frame := d.slots[i].frame, loopback := true, failed := failed, ts := ts }
  else d

/-- EVTXC on Driver State (43_event_handlers R212). -/
def Driver.txComplete (free : Word) (i : Fin 3) (ok : Bool) (ts : Tick) (d : Driver) : Driver :=
  { (((d.countTx free ok).report free i (!ok) ts).clearPending i) with txEv := true }

/-- EVTXC (43_event_handlers R211, R212). -/
def execEvtxc (idx : BitVec 2) (ok : Bool) (s : State) : Outcome State Fault Refusal :=
  guardOp (.evtxc idx ok) s
    (match slotIndex idx with
     | none => raiseFault .badIndex s
     | some i => finish .ok { s with drv := s.drv.txComplete (Config.freeCount s.freeIdx) i ok s.ops.ts }.drawn)

/-- The hardware overflow of FIFO `k` is counted (43_event_handlers R216). -/
def Driver.countOverflow (ovf : Bool) (d : Driver) : Driver :=
  if ovf then { d with rxq := d.rxq.countOverflow } else d

/-- EVRXA on Driver State: count an overflow, then push the decoded frame with the tick `t` (43_event_handlers R215 to
R217). -/
def Driver.rxAvailable (free : Word) (ovf : Bool) (m : RxMsg) (t : Tick) (d : Driver) : Driver :=
  (d.countOverflow ovf).push free { frame := frameOfMsg m, loopback := false, failed := false, ts := t }

/-- EVRXA (43_event_handlers R214, R215, R218): the fault tests precede every write. -/
def execEvrxa (idx : BitVec 2) (s : State) : Outcome State Fault Refusal :=
  guardOp (.evrxa idx) s
    (match fifoIndex idx with
     | none => raiseFault .badIndex s
     | some k =>
       match s.ctrl.status.fifo[k].entries with
       | [] => raiseFault .rxEmpty s
       | m :: _ =>
         if Config.maxDlc < m.dlc.toNat then raiseFault .rxDlc s
         else
           finish .ok
             { s with
               drv := s.drv.rxAvailable (Config.freeCount s.freeIdx) s.ctrl.status.fifo[k].overflow m s.now
               ctrl := s.ctrl.rxRelease k }.drawn)

/-- The bus-off branch for one slot: its pending flag cleared and, with loopback, a failed report (43_event_handlers
R220, R221). -/
def Driver.abortSlot (free : Word) (ts : Tick) (i : Fin 3) (d : Driver) : Driver :=
  (d.report free i true ts).clearPending i

/-- The bus-off branch: `tx_ev` signalled once, the slots in ascending order (43_event_handlers R221). -/
def Driver.busOff (free : Word) (ts : Tick) (d : Driver) : Driver :=
  ((({ d with txEv := true }.abortSlot free ts 0).abortSlot free ts 1).abortSlot free ts 2)

/-- The last-error-code branch (43_event_handlers R222). -/
def Driver.recordError (free : Word) (lec : BitVec 4) (d : Driver) : Driver :=
  if lec ≠ 0 then { d with lastErr := lec, errCnt := countUp free d.errCnt } else d

/-- EVSTS on CTRL and Driver State (43_event_handlers R220). -/
def statusChange (s : State) : State :=
  let free := Config.freeCount s.freeIdx
  let st := s.ctrl.status
  if st.busOff then
    { s with
      ctrl := s.ctrl.clearErrorFlag.abortAll
      drv := (s.drv.busOff free s.ops.ts).recordError free st.lec }
  else { s with ctrl := s.ctrl.clearErrorFlag, drv := s.drv.recordError free st.lec }

/-- EVSTS (43_event_handlers R220). -/
def execEvsts (s : State) : Outcome State Fault Refusal :=
  guardOp .evsts s (finish .ok (statusChange s).drawn)

end Sys2Proof.Machine
end

