-- ==== Sys2Proof/Machine/Queue.lean ====
section
/-! DEFINITION. The receive queue's operations: QPUSH, QPOP, QRESET, QLEN (42_receive_queue). -/

namespace Sys2Proof.Machine

open Host (Outcome)

/-- The queue of a state is replaced. -/
def State.setQueue (q : RxQueue) (s : State) : State := { s with drv := { s.drv with rxq := q } }

/-- QPUSH: the whole `handler_push` of `A_FRM`, `A_RXF`, `A_TS` (42_receive R191, 92_eei_decisions D18). -/
def execQpush (s : State) : Outcome State Fault Refusal :=
  guardOp .qpush s (finish .ok { s with drv := s.drv.push (Config.freeCount s.freeIdx) s.ops.entry }.drawn)

/-- QPOP (42_receive R193); on an empty queue `EMPTY_POP` (R194). -/
def execQpop (s : State) : Outcome State Fault Refusal :=
  guardOp .qpop s
    (if s.drv.rxq.len = 0 then raiseFault .emptyPop s
     else finish .ok ((s.setRes { s.res with rxf := s.drv.rxq.oldest }).setQueue s.drv.rxq.popped))

/-- QRESET (42_receive R195); `rx_ev` and the storage are untouched. -/
def execQreset (s : State) : Outcome State Fault Refusal :=
  guardOp .qreset s (finish .ok (s.setQueue s.drv.rxq.cleared))

/-- QLEN (42_receive R196). -/
def execQlen (s : State) : Outcome State Fault Refusal :=
  guardOp .qlen s (finishVal (s.drv.rxq.len.setWidth 32) s)

end Sys2Proof.Machine
end

