-- ==== Sys2Proof/Machine/Waits.lean ====
section
/-! DEFINITION. The thread side of the signaler: WAITTX and WAITRX (43_event_handlers R226 to R230). -/

namespace Sys2Proof.Machine

open Host (Outcome)

/-- `tx_ev` is cleared by a completed wait. -/
def State.clearTxEv (s : State) : State := { s with drv := { s.drv with txEv := false } }

/-- `rx_ev` is cleared by a completed wait. -/
def State.clearRxEv (s : State) : State := { s with drv := { s.drv with rxEv := false } }

/-- A move of a stand-alone WAITTX in progress (43_event_handlers R228). -/
def waitTxMove (ti budget : Tick) (s : State) : State :=
  match waitEnd s.drv.txEv s.now ti budget s.wake with
  | .blocked => s
  | .signalled => s.clearTxEv.dropSeq.setStatus ResultCode.ok.code
  | .expired => s.dropSeq.setStatus ResultCode.waitTimeout.code
  | .spurious => s.dropSeq.setStatus ResultCode.ok.code

/-- A move of a stand-alone WAITRX in progress (43_event_handlers R229). -/
def waitRxMove (ti budget : Tick) (s : State) : State :=
  match waitEnd s.drv.rxEv s.now ti budget s.wake with
  | .blocked => s
  | .signalled => s.clearRxEv.dropSeq.setStatus ResultCode.ok.code
  | .expired => s.dropSeq.setStatus ResultCode.waitTimeout.code
  | .spurious => s.dropSeq.setStatus ResultCode.ok.code

/-- WAITTX: issued, it notes the tick and its budget; from then on each move of its thread tries one completion
(43_event_handlers R228). The session is checked when it is issued. Log 22. -/
def execWaittx (s : State) : Outcome State Fault Refusal :=
  if admits .thread s.agent = false then raiseFault .context s
  else
    match s.curSeq with
    | some (.waitTx ti budget) => .next (waitTxMove ti budget s)
    | some _ => .fault .agentBusy
    | none => guardOp .waittx s (.next (s.putSeq (.waitTx s.now s.ops.tmo)))

/-- WAITRX (43_event_handlers R229). -/
def execWaitrx (s : State) : Outcome State Fault Refusal :=
  if admits .thread s.agent = false then raiseFault .context s
  else
    match s.curSeq with
    | some (.waitRx ti budget) => .next (waitRxMove ti budget s)
    | some _ => .fault .agentBusy
    | none => guardOp .waitrx s (.next (s.putSeq (.waitRx s.now s.ops.tmo)))

end Sys2Proof.Machine
end

