-- ==== Sys2Proof/Machine/HostApi.lean ====
section
/-! DEFINITION. The two host sequences SEND and RECEIVE (44_session R255 to R263). -/

namespace Sys2Proof.Machine

open Host (Outcome)

/-- One step of SEND (44_session R255). `OK` means loaded, not sent (R255); `NO_FREE_SLOT` falls through (R257). -/
def sendMove (f : Frame) (timeout : Tick) (p : SendPos) (s : State) : State :=
  let goto (q : SendPos) (s : State) : State := s.putSeq (.send q f timeout)
  match p with
  | .acquire => s.acquire (.send .checkRunning f timeout)
  | .checkRunning => if s.sess = .running then goto .entry s else s.returnWith OpFault.notRunning.code
  | .entry => goto (.canacc s.now) s
  | .canacc t0 =>
    if canAccept f s.ctrl.status.tme s.drv.slots then goto (.mbload t0) s else goto (.tail t0 .elapsed) s
  | .mbload t0 => goto (.loaded t0 (loadMailbox f s).1) (loadMailbox f s).2
  | .loaded t0 r =>
    if r = .ok then s.returnWith ResultCode.ok.code
    else if r = .unsupportedFrame then s.returnWith ResultCode.unsupportedFrame.code
    else goto (.tail t0 .elapsed) s
  | .tail t0 q =>
    match tailStep timeout t0 s.now s.drv.txEv s.wake q with
    | .stay => s
    | .giveUp => s.returnWith ResultCode.notSent.code
    | .goto q' => goto (.tail t0 q') s
    | .again true => goto (.canacc t0) s.clearTxEv
    | .again false => goto (.canacc t0) s

/-- SEND (44_session R255): issued, its context is checked and it reads its operands; then each move of its thread is one
step of its text, the first of them the lock and the session. Log 18. -/
def execSend (s : State) : Outcome State Fault Refusal :=
  match s.curSeq with
  | none => guardOp .send s (.next (s.putSeq (.send .acquire s.ops.frm s.ops.tmo)))
  | some (.send p f timeout) => .next (sendMove f timeout p s)
  | some _ => .fault .agentBusy

/-- The atomic block of RECEIVE with an entry in the queue: pop, release, return (44_session R262). -/
def State.receiveOldest (s : State) : State :=
  ((s.setRes { s.res with rxf := s.drv.rxq.oldest }).setQueue s.drv.rxq.popped).returnWith ResultCode.ok.code

/-- `NO_DATA`: `R_RXF` is a free value (44_session R262, U3). Log 6. -/
def State.receiveNothing (s : State) : State :=
  (s.setRes { s.res with rxf := Config.freeReceived s.freeIdx }).drawn.returnWith ResultCode.noData.code

/-- One step of RECEIVE (44_session R262). -/
def receiveMove (timeout : Tick) (p : RecvPos) (s : State) : State :=
  let goto (q : RecvPos) (s : State) : State := s.putSeq (.receive q timeout)
  match p with
  | .acquire => s.acquire (.receive .checkRunning timeout)
  | .checkRunning => if s.sess = .running then goto .entry s else s.returnWith OpFault.notRunning.code
  | .entry => goto (.tryPop s.now) s
  | .tryPop t0 => if s.drv.rxq.len = 0 then goto (.tail t0 .elapsed) s else s.receiveOldest
  | .tail t0 q =>
    match tailStep timeout t0 s.now s.drv.rxEv s.wake q with
    | .stay => s
    | .giveUp => s.receiveNothing
    | .goto q' => goto (.tail t0 q') s
    | .again true => goto (.tryPop t0) s.clearRxEv
    | .again false => goto (.tryPop t0) s

/-- RECEIVE (44_session R262), issued and carried on as SEND is. Log 18. -/
def execReceive (s : State) : Outcome State Fault Refusal :=
  match s.curSeq with
  | none => guardOp .receive s (.next (s.putSeq (.receive .acquire s.ops.tmo)))
  | some (.receive p timeout) => .next (receiveMove timeout p s)
  | some _ => .fault .agentBusy

end Sys2Proof.Machine
end

