-- ==== Sys2Proof/Machine/Timing.lean ====
section
/-! DEFINITION. The timing calculator unit: TCALC (40_timing_calculator). Every variable is a natural number (R131), and
R140 gives the widths of the result. -/

namespace Sys2Proof.Machine

open Host (Outcome)

/-- The largest `sum` tried: `maxq - 1` (40_timing R133, R134). -/
def maxSum (rate : Nat) : Nat := (if Config.fastRate ≤ rate then Config.maxqFast else Config.maxqSlow) - 1

/-- The search: the first `sum` downward, not below `MIN_SUM`, with `pbs mod (1 + sum) = 0` (40_timing R134). -/
def searchSum (pbs : Nat) : Nat → Option Nat
  | 0 => none
  | n + 1 =>
    if n + 1 < Config.minSum then none
    else if pbs % (1 + (n + 1)) = 0 then some (n + 1)
    else searchSum pbs n

/-- The candidate rounded to nearest, halves upward (40_timing R136). -/
def nearestBs1 (sum : Nat) : Nat := (7 * sum - 1 + 4) / 8

/-- The candidate rounded toward zero (40_timing R136). -/
def towardZeroBs1 (sum : Nat) : Nat := (7 * sum - 1) / 8

/-- The sample point in parts per thousand (40_timing R137). -/
def samplePoint (bs1 sum : Nat) : Nat := (1000 * (1 + bs1)) / (1 + sum)

/-- The selected phase segment 1 (40_timing R137). -/
def selectBs1 (sum : Nat) : Nat :=
  if samplePoint (nearestBs1 sum) sum ≤ Config.spMaxPermille then nearestBs1 sum else towardZeroBs1 sum

/-- The result record (40_timing R139). -/
def timingsOf (prescaler bs1 bs2 : Nat) : Timings :=
  { prescaler := BitVec.ofNat 11 prescaler, sjw := BitVec.ofNat 3 Config.sjwQuanta, bs1 := BitVec.ofNat 5 bs1,
    bs2 := BitVec.ofNat 4 bs2 }

/-- From the chosen `sum` to the result: the prescaler's range, the split, the final validation (40_timing R135 to
R139). -/
def timingFrom (clk rate pbs sum : Nat) : TimResult :=
  let prescaler := pbs / (1 + sum)
  if prescaler < 1 ∨ Config.prescMax < prescaler then .invalidBitRate
  else
    let bs1 := selectBs1 sum
    let bs2 := sum - bs1
    if bs1 < 1 ∨ Config.bs1Max < bs1 ∨ bs2 < 1 ∨ Config.bs2Max < bs2 then .logic
    else if clk / (prescaler * (1 + bs1 + bs2)) ≠ rate then .logic
    else .ok (timingsOf prescaler bs1 bs2)

/-- TCALC on natural numbers (40_timing R131). -/
def timingCalc (clk rate : Nat) : TimResult :=
  if rate = 0 then .invalidBitRate
  else
    match searchSum (clk / rate) (maxSum rate) with
    | none => .invalidBitRate
    | some sum => timingFrom clk rate (clk / rate) sum

/-- The result code of a calculation (60_exceptions R281). -/
def TimResult.code : TimResult → ResultCode
  | .ok _ => .ok
  | .invalidBitRate => .invalidBitRate
  | .logic => .logic

/-- What `R_TIM` holds after a calculation: the timings, or a free value if it failed (40_timing R130, U2). Log 6. -/
def TimResult.timings (free : Timings) : TimResult → Timings
  | .ok tim => tim
  | .invalidBitRate => free
  | .logic => free

/-- TCALC (40_timing R131): `R_STATUS` and `R_TIM` of the issuing context, nothing else. -/
def execTcalc (s : State) : Outcome State Fault Refusal :=
  guardOp .tcalc s
    (let r := timingCalc s.ops.clk.toNat s.ops.rate.toNat
     .next (s.setRes { s.res with status := r.code.code, tim := r.timings (Config.freeTimings s.freeIdx) }).drawn)

end Sys2Proof.Machine
end

