-- ==== Sys2Proof/Machine/Session.lean ====
section
/-! DEFINITION. The session: START and STOP, each a sequence of the steps of its rule's text (44_session R240 to R251). -/

namespace Sys2Proof.Machine

open Host (Outcome)

/-- CTRL after a command. -/
def State.command (f : Ctrl → Ctrl) (s : State) : State := { s with ctrl := f s.ctrl }

/-- Step 1 of START, the one-time enable (44_session R242). -/
def State.enableOnce (s : State) : State :=
  if s.hwEnabled then s else { s.command Ctrl.hwEnableReset with hwEnabled := true }

/-- Step 3 of START: Driver State is constructed (44_session R244). -/
def State.constructDriver (loopback : Bool) (s : State) : State :=
  { s with drv := Driver.fresh s.freeIdx loopback }.drawn

/-- Step 4 of START: TCALC runs on START's own operands and leaves `R_TIM` (44_session R245, 10_state R23). -/
def State.storeTimings (r : TimResult) (s : State) : State :=
  (s.setRes { s.res with tim := r.timings (Config.freeTimings s.freeIdx) }).drawn

/-- One read of `init_ack` by `poll(c)` (44_session R243): the first read that satisfies `c` goes on; after
`INIT_RETRY_BOUND` reads the poll fails. -/
def pollStep (want ack : Bool) (n : Nat) : Option Bool :=
  if ack = want then some true else if n + 1 < Config.initRetryBound then none else some false

/-- One step of START (44_session R241). A failing START leaves no Driver State (70_reset R334). -/
def startMove (clk rate : Word) (opt : StartOpts) (p : StartPos) (s : State) : State :=
  let goto (q : StartPos) (s : State) : State := s.putSeq (.start q clk rate opt)
  match p with
  | .acquire => s.acquire (.start .hwEnable clk rate opt)
  | .hwEnable => goto .irqOff s.enableOnce
  | .irqOff => goto .sessStop (s.command (Ctrl.irqEnable .none))
  | .sessStop => goto .reqInit s.discardDriver
  | .reqInit => goto (.pollEnter 0) (s.command (Ctrl.requestInit true))
  | .pollEnter n =>
    match pollStep true s.ctrl.status.initAck n with
    | none => goto (.pollEnter (n + 1)) s
    | some true => goto .construct s
    | some false => s.returnWith ResultCode.initModeNotEntered.code
  | .construct => goto .tcalc (s.constructDriver opt.loopback)
  | .tcalc =>
    let r := timingCalc clk.toNat rate.toNat
    goto (.checkTim r) (s.storeTimings r)
  | .checkTim r =>
    match r with
    | .ok tim => goto (.setTiming tim) s
    | .invalidBitRate => s.discardDriver.returnWith ResultCode.invalidBitRate.code
    | .logic => s.discardDriver.returnWith ResultCode.logic.code
  | .setTiming tim => goto .sessRun (s.command (Ctrl.setTiming tim opt.silent))
  | .sessRun => goto .irqOn { s with sess := .running }
  | .irqOn => goto .reqExit (s.command (Ctrl.irqEnable .allSix))
  | .reqExit => goto (.pollExit 0) (s.command (Ctrl.requestInit false))
  | .pollExit n =>
    match pollStep false s.ctrl.status.initAck n with
    | none => goto (.pollExit (n + 1)) s
    | some true => goto .filter s
    | some false => goto .failExit s
  | .failExit => goto .failStop (s.command (Ctrl.irqEnable .none))
  | .failStop => goto .failReturn s.discardDriver
  | .failReturn => s.returnWith ResultCode.initModeNotCleared.code
  | .filter => goto .finish (s.command Ctrl.filterAcceptAll)
  | .finish => s.returnWith ResultCode.ok.code

/-- START (44_session R241): written, it reads its operands; then each move of its thread is one step of its text. -/
def execStart (s : State) : Outcome State Fault Refusal :=
  guardOp .start s
    (match s.curSeq with
     | none => .next (s.putSeq (.start .acquire s.ops.clk s.ops.rate s.ops.opt))
     | some (.start p clk rate opt) => .next (startMove clk rate opt p s)
     | some _ => .fault .agentBusy)

/-- One step of STOP (44_session R250). -/
def stopMove (p : StopPos) (s : State) : State :=
  match p with
  | .acquire => s.acquire (.stop .irqOff)
  | .irqOff => (s.command (Ctrl.irqEnable .none)).putSeq (.stop .sessStop)
  | .sessStop => s.discardDriver.putSeq (.stop .lowPower)
  | .lowPower => (s.command Ctrl.lowPowerReset).putSeq (.stop .clearIrq)
  | .clearIrq => (s.command Ctrl.clearPendingIrq).putSeq (.stop .finish)
  | .finish => s.returnWith ResultCode.ok.code

/-- STOP (44_session R250). -/
def execStop (s : State) : Outcome State Fault Refusal :=
  guardOp .stop s
    (match s.curSeq with
     | none => .next (s.putSeq (.stop .acquire))
     | some (.stop p) => .next (stopMove p s)
     | some _ => .fault .agentBusy)

end Sys2Proof.Machine
end

