-- ==== Sys2Proof/Machine/Dispatch.lean ====
section
/-! DEFINITION. What each operation does, one arm per constructor of `Instr`. -/

namespace Sys2Proof.Machine

def exec (i : Instr) (s : State) : Host.Outcome State Fault Refusal :=
  match i with
  | .tcalc => Sys2Proof.Machine.execTcalc s
  | .pricmp => Sys2Proof.Machine.execPricmp s
  | .canacc => Sys2Proof.Machine.execCanacc s
  | .mbload => Sys2Proof.Machine.execMbload s
  | .qpush => Sys2Proof.Machine.execQpush s
  | .qpop => Sys2Proof.Machine.execQpop s
  | .qreset => Sys2Proof.Machine.execQreset s
  | .qlen => Sys2Proof.Machine.execQlen s
  | .evtxc idx ok => Sys2Proof.Machine.execEvtxc idx ok s
  | .evrxa idx => Sys2Proof.Machine.execEvrxa idx s
  | .evsts => Sys2Proof.Machine.execEvsts s
  | .start => Sys2Proof.Machine.execStart s
  | .stop => Sys2Proof.Machine.execStop s
  | .send => Sys2Proof.Machine.execSend s
  | .receive => Sys2Proof.Machine.execReceive s
  | .waittx => Sys2Proof.Machine.execWaittx s
  | .waitrx => Sys2Proof.Machine.execWaitrx s
  | .rderr => Sys2Proof.Machine.execRderr s
  | .rdovf => Sys2Proof.Machine.execRdovf s
  | .rdtxc => Sys2Proof.Machine.execRdtxc s
  | .rdrxc => Sys2Proof.Machine.execRdrxc s
  | .rdlec => Sys2Proof.Machine.execRdlec s
  | .rdpeak => Sys2Proof.Machine.execRdpeak s
  | .rdact => Sys2Proof.Machine.execRdact s

end Sys2Proof.Machine
end

