-- ==== Sys2Proof/Machine/Agents.lean ====
section
/-! DEFINITION. What a move of an agent does to the machine (00_scope R18, 20_memory R72, 60_exceptions R292, R296,
R309). A move that is not enabled does nothing. Log 1, log 2. -/

namespace Sys2Proof.Machine

open Host (Outcome)

/-- Whether an agent may issue now: a thread only outside an interrupt entry (20_memory R72 b) and with no sequence of
its own in progress (30_encoding R97); interrupt context unless START or STOP has it silenced (20_memory R72 a; beside the
dispatcher, log 16). -/
def mayIssue (a : Agent) (s : State) : Bool :=
  match a with
  | .thread t => decide (s.irq = none) && (seqGet t s.seqs).isNone
  | .interrupt => !s.silenced

/-- A command word is written (30_encoding R97, R99): decoded, then the operation, or `ILLEGAL_OP`. -/
def issue (a : Agent) (w : Word) (s : State) : Outcome State Fault Refusal :=
  match decode w with
  | .illegal _ => raiseFault .illegalOp { s with agent := a }
  | .instr i => exec i { s with agent := a }

/-- Thread `t` carries on, if it has a sequence and no interrupt entry is in progress (20_memory R72 b). -/
def carryOn (t : Nat) (k : Wake) (s : State) : Outcome State Fault Refusal :=
  if s.irq = none then
    match seqGet t s.seqs with
    | none => .next s
    | some q => exec q.instr { s with agent := .thread t, wake := k }
  else .next s

/-- The dispatcher serves a cause that stands, inside an interrupt entry: it acknowledges a request-completed flag and
hands over the slot's transmit-OK flag and the tick read at entry (60_exceptions R292, DP1 to DP3). -/
def serve (c : Cause) (s : State) : Outcome State Fault Refusal :=
  match s.irq with
  | none => .next s
  | some ts =>
    if s.ctrl.raised c then
      match c with
      | .txc i =>
        exec (.evtxc (BitVec.ofNat 2 i.val) (portBit s.ctrl.status.txok i))
          { s with agent := .interrupt, ops := { s.ops with ts := ts }, ctrl := s.ctrl.ackRqcp i }
      | .rx k => exec (.evrxa (BitVec.ofNat 2 k.val)) { s with agent := .interrupt }
      | .status => exec .evsts { s with agent := .interrupt, ops := { s.ops with ts := ts } }
    else .next s

/-- Slot `i` becomes free (60_exceptions R309 CP1, CP5): `flag` is the completion CTRL flags, if any.
DESIGN CHOICE: the spec does not say when the slot's abort-request bit and its mailbox's transmit-request bit drop; both
drop here. Log 15. -/
def Ctrl.freeSlot (i : Fin 3) (flag : Option Bool) (c : Ctrl) : Ctrl :=
  { status :=
      { c.status with
        tme := setPortBit c.status.tme i true
        abrq := setPortBit c.status.abrq i false
        rqcp := (match flag with | some _ => setPortBit c.status.rqcp i true | none => c.status.rqcp)
        txok := (match flag with | some ok => setPortBit c.status.txok i ok | none => c.status.txok) },
    regs := { c.regs with mbox := c.regs.mbox.set i { c.regs.mbox[i] with req := false } } }

/-- CTRL moves, within the premises of 60_exceptions R309. Log 12. -/
def ctrlMove (m : CtrlMove) (s : State) : State :=
  let st := s.ctrl.status
  match m with
  | .txDone i ok =>
    if portBit st.tme i then s else { s with ctrl := s.ctrl.freeSlot i (some ok) }
  | .abortDone i flagged =>
    if portBit st.tme i || !portBit st.abrq i then s
    else { s with ctrl := s.ctrl.freeSlot i (if flagged then some false else none) }
  | .rxDeliver k m =>
    { s with ctrl := { s.ctrl with status :=
        { st with fifo := st.fifo.set k { st.fifo[k] with entries := st.fifo[k].entries ++ [m] } } } }
  | .rxOverflow k b =>
    { s with ctrl := { s.ctrl with status := { st with fifo := st.fifo.set k { st.fifo[k] with overflow := b } } } }
  | .busOff b =>
    { s with ctrl := { s.ctrl with status := { st with busOff := b, errFlag := st.errFlag || (b && !st.busOff) } } }
  | .lec c =>
    { s with ctrl := { s.ctrl with status := { st with lec := c, errFlag := st.errFlag || decide (c ≠ st.lec) } } }
  | .errorCond => { s with ctrl := { s.ctrl with status := { st with errFlag := true } } }
  | .initAck b => { s with ctrl := { s.ctrl with status := { st with initAck := b } } }
  | .redraw st' => if s.sess = .stopped then { s with ctrl := { s.ctrl with status := st' } } else s

/-- One move of one agent. -/
def perform (m : Move) (s : State) : Outcome State Fault Refusal :=
  match m with
  | .load a w => if mayIssue a s then .next { s with ops := s.ops.load w } else .next s
  | .cmd a w => if mayIssue a s then issue a w s else .next s
  | .run t k => carryOn t k s
  | .ctrl m => .next (ctrlMove m s)
  | .tick d => .next { s with now := s.now + d }
  | .irqEnter => .next s.irqEnter
  | .dispatch c => serve c s
  | .irqLeave => .next s.irqLeave

/-- The sources on again, if START or STOP has interrupt context silenced. -/
def State.heard (s : State) : State := if s.silenced then s.command (Ctrl.irqEnable .allSix) else s

/-- Put the command word `w` first in the list of moves, issued by an agent of the context the operation belongs to (a
thread with no sequence in progress, outside an interrupt entry; interrupt context, not silenced), so that the next step
runs it. Log 1. -/
def placeCommand (w : Word) (s : State) : State :=
  let byThread : State := { s with irq := none, sched := .cmd (.thread (freshThread s.seqs)) w :: s.sched }
  match decode w with
  | .illegal _ => byThread
  | .instr i =>
    match opContext i with
    | .interrupt => { s.heard with sched := .cmd .interrupt w :: s.sched }
    | .any => byThread
    | .thread => byThread

end Sys2Proof.Machine
end

