-- ==== Sys2Proof/Machine/Step.lean ====
section
/-! DEFINITION. One step: the next move of the list of moves is made; with none left the machine idles. -/

namespace Sys2Proof.Machine

/-- The step of the machine (20_memory R71: a total order of atomic operations, CTRL steps and tick advances). Log 1. -/
def step (s : State) : Host.Outcome State Fault Refusal :=
  match s.sched with
  | [] => .next s
  | m :: rest => perform m { s with sched := rest }

/-- `s` with the command word `w` (its bits above `nbits` zero) as the very next move. -/
def State.withFetchWord (s : State) (nbits w : Nat) : State :=
  placeCommand (BitVec.ofNat 32 (w % 2 ^ nbits)) s

end Sys2Proof.Machine
end

