-- ==== Sys2Proof/Safety.lean ====
section
/-! DEFINITION. The terms claims use: the queue as a value (42_receive R190), the invariants of the machine, and when a run
is over or quiescent (60_exceptions R317). -/

namespace Sys2Proof.Machine

/-! ### TCALC's search -/

/-- `sum` is the largest of `top` down to 3 whose `1 + sum` divides `pbs` (40_timing R134, R142). -/
abbrev LargestSum (pbs top sum : Nat) : Prop :=
  3 ≤ sum ∧ sum ≤ top ∧ (1 + sum) ∣ pbs ∧ ∀ n ≤ top, sum < n → ¬(1 + n) ∣ pbs

/-- The largest `sum` tried for a rate: 9 at or above 1,000,000 bit/s, else 16 (40_timing R133). -/
abbrev topSum (rate : Nat) : Nat := if 1000000 ≤ rate then 9 else 16

/-- The split chosen for every `sum`: rows `(sum, bs1, bs2)` of the table of 40_timing R141. -/
def splitTable : List (Nat × Nat × Nat) :=
  [(3, 2, 1), (4, 3, 1), (5, 4, 1), (6, 5, 1), (7, 6, 1), (8, 7, 1), (9, 8, 1), (10, 8, 2), (11, 9, 2), (12, 10, 2),
   (13, 11, 2), (14, 12, 2), (15, 13, 2), (16, 14, 2)]

/-! ### The queue as a value -/

/-- The sequence the queue contains, oldest first: `len` entries from `tail` on (42_receive R190). -/
def RxQueue.contents (q : RxQueue) : List ReceivedFrame :=
  (List.range q.len.toNat).map fun k => q.buf[(q.tail.toNat + k) % 16]'(Nat.mod_lt _ (by decide))

/-- The queue's invariant: `len <= 16` and `head = (tail + len) mod 16` (10_state R30). -/
abbrev RxQueue.Inv (q : RxQueue) : Prop :=
  q.len.toNat ≤ 16 ∧ q.head.toNat = (q.tail.toNat + q.len.toNat) % 16

/-- What pushing the frames of `l` one after the other leaves (42_receive R191). -/
def RxQueue.pushAll (q : RxQueue) (l : List ReceivedFrame) : RxQueue := l.foldl (fun q e => q.push e) q

/-- The failed loopback reports a bus-off makes, in slot order (43_event_handlers R220, R221). -/
def Driver.abortReports (d : Driver) (ts : Tick) : List ReceivedFrame :=
  if d.loopback then
    ([0, 1, 2] : List (Fin 3)).filterMap fun i =>
      if d.slots[i].pending then some { frame := d.slots[i].frame, loopback := true, failed := true, ts := ts } else none
  else []

/-! ### The moves of whole sequences (44_session R241, R250, R255, R262) -/

/-- Thread `t` carries on `n` times. -/
def carryOns (t : Nat) (k : Wake) (n : Nat) : List Move := List.replicate n (.run t k)

/-- START issued by thread `t` with CTRL acknowledging each mode request before the first poll. -/
def startMoves (t : Nat) (k : Wake) : List Move :=
  .cmd (.thread t) 0x00000040#32 :: carryOns t k 5 ++ .ctrl (.initAck true) :: carryOns t k 8
    ++ .ctrl (.initAck false) :: carryOns t k 3

/-! ### Sequences and the lock -/

/-- Whether a thread at this place holds `mtx` (44_session R241, R250, R255, R262; 20_memory R70). -/
def Seq.holdsLock : Seq → Bool
  | .start p _ _ _ => decide (p ≠ .acquire)
  | .stop p => decide (p ≠ .acquire)
  | .send p _ _ => decide (p ≠ .acquire)
  | .receive p _ => decide (p ≠ .acquire)
  | .waitTx _ _ => false
  | .waitRx _ _ => false

/-- What `sess` is at this place of START (44_session R241, R243, R247, R248), where its text fixes it. -/
def StartPos.sessAt : StartPos → Option Session
  | .acquire => none
  | .hwEnable => none
  | .irqOff => none
  | .sessStop => none
  | .reqInit => some .stopped
  | .pollEnter _ => some .stopped
  | .construct => some .stopped
  | .tcalc => some .stopped
  | .checkTim _ => some .stopped
  | .setTiming _ => some .stopped
  | .sessRun => some .stopped
  | .irqOn => some .running
  | .reqExit => some .running
  | .pollExit _ => some .running
  | .failExit => some .running
  | .failStop => some .running
  | .failReturn => some .stopped
  | .filter => some .running
  | .finish => some .running

/-- What `sess` is at this place of STOP (44_session R250). -/
def StopPos.sessAt : StopPos → Option Session
  | .acquire => none
  | .irqOff => none
  | .sessStop => none
  | .lowPower => some .stopped
  | .clearIrq => some .stopped
  | .finish => some .stopped

/-- What `sess` is at this place of a sequence: SEND and RECEIVE run inside a session once they have looked (44_session
R255, R262, 20_memory R70). -/
def Seq.sessAt : Seq → Option Session
  | .start p _ _ _ => p.sessAt
  | .stop p => p.sessAt
  | .send .acquire _ _ => none
  | .send .checkRunning _ _ => none
  | .send .entry _ _ => some .running
  | .send (.canacc _) _ _ => some .running
  | .send (.mbload _) _ _ => some .running
  | .send (.loaded _ _) _ _ => some .running
  | .send (.tail _ _) _ _ => some .running
  | .receive .acquire _ => none
  | .receive .checkRunning _ => none
  | .receive .entry _ => some .running
  | .receive (.tryPop _) _ => some .running
  | .receive (.tail _ _) _ => some .running
  | .waitTx _ _ => none
  | .waitRx _ _ => none

/-- Whether a START at this place has constructed Driver State and not yet started the session (44_session R244, R247). -/
def Seq.constructing : Seq → Bool
  | .start .tcalc _ _ _ => true
  | .start (.checkTim _) _ _ _ => true
  | .start (.setTiming _) _ _ _ => true
  | .start .sessRun _ _ _ => true
  | _ => false

/-- The threads of the list rise strictly: its canonical form. -/
def threadsRise : List (Nat × Seq) → Bool
  | [] => true
  | (t, _) :: l => l.all (fun e => decide (t < e.1)) && threadsRise l

/-- `mtx` and the sequences agree: one entry a thread, every thread past `acquire` is the owner, and an owner is past
`acquire` (10_state R45, 20_memory R70). -/
abbrev State.LockInv (s : State) : Prop :=
  threadsRise s.seqs = true ∧ (∀ e ∈ s.seqs, e.2.holdsLock = true → s.mtx = some e.1) ∧
    (∀ t ∈ s.mtx, ∃ e ∈ s.seqs, e.1 = t ∧ e.2.holdsLock = true)

/-- The session and the sequences agree: `sess` is what each place says (20_memory R70: it "cannot change while a SEND or
RECEIVE is in progress"), handlers run in a session only (60_exceptions DP1), and with no session Driver State does not
exist, unless a START has just constructed it (10_state R26, 44_session R240). -/
abbrev State.SessionInv (s : State) : Prop :=
  (∀ e ∈ s.seqs, ∀ x ∈ e.2.sessAt, s.sess = x) ∧ (s.irq ≠ none → s.sess = .running) ∧
    (s.sess = .stopped → s.drv = Driver.absent ∨ ∃ e ∈ s.seqs, e.2.constructing = true)

/-! ### Driver State and CTRL -/

/-- Ranges of Driver State: the queue's invariant and `peak_mb` 0 to 2 (10_state R30, R34). -/
abbrev Driver.RangeInv (d : Driver) : Prop := d.rxq.Inv ∧ d.peakMb.toNat ≤ 2

/-- No slot holds a pending frame that MBLOAD refuses (10_state R41, 41_priority R171). -/
abbrev Driver.ShapeInv (d : Driver) : Prop := ∀ i : Fin 3, d.slots[i].pending = true → d.slots[i].frame.unsupported = false

/-- The one-time enable was commanded once if `hw_enabled` is set and never otherwise (44_session R242, 10_state R21). -/
abbrev State.EnableInv (s : State) : Prop := s.ctrl.regs.enables = if s.hwEnabled then 1 else 0

/-- From `c` to `d` slot `i` alone became free, with CTRL's completion flag and transmit-OK flag as `flag` says, and its two
request bits dropped (60_exceptions R309 CP1, CP5; log 15). -/
abbrev freesSlot (i : Fin 3) (flag : Option Bool) (c d : Ctrl) : Prop :=
  (∀ j : Fin 3,
    d.status.tme.getLsbD j.val = (decide (j = i) || c.status.tme.getLsbD j.val) ∧
    d.status.abrq.getLsbD j.val = (c.status.abrq.getLsbD j.val && decide (j ≠ i)) ∧
    d.status.rqcp.getLsbD j.val = ((flag.isSome && decide (j = i)) || c.status.rqcp.getLsbD j.val) ∧
    d.status.txok.getLsbD j.val = (if j = i then flag.getD (c.status.txok.getLsbD j.val) else c.status.txok.getLsbD j.val) ∧
    d.regs.mbox[j] = { c.regs.mbox[j] with req := c.regs.mbox[j].req && decide (j ≠ i) }) ∧
  d.status = { c.status with
    tme := d.status.tme, abrq := d.status.abrq, rqcp := d.status.rqcp, txok := d.status.txok } ∧
  d.regs = { c.regs with mbox := d.regs.mbox }

/-! ### The end of a run (60_exceptions R317) -/

/-- No fault code stands in either copy of `R_STATUS` (the codes of 60_exceptions R283 are 0xF0 to 0xF6). -/
def State.noFaultRecorded (s : State) : Bool := decide (s.resT.status < 0xF0) && decide (s.resI.status < 0xF0)

/-- The run of `n` steps from `s` raises no fault and its last state has `p`. A fault's step leaves its code in a copy of
`R_STATUS` (60_exceptions R283, R284), so none was raised exactly if no state of the run records one, the first included
(R318 LP2); a code that a later operation overwrites still counts. -/
def State.runReaches (p : State → Bool) : Nat → State → Bool
  | 0, s => s.noFaultRecorded && p s
  | n + 1, s =>
    s.noFaultRecorded &&
      match step s with
      | .next t => t.runReaches p n
      | .fault _ => false
      | .refused _ => false

/-- A move by which the host issues an operation. -/
def Move.byHost : Move → Bool
  | .cmd (.thread _) _ => true
  | .cmd .interrupt _ => false
  | .load _ _ => false
  | .run _ _ => false
  | .ctrl _ => false
  | .tick _ => false
  | .irqEnter => false
  | .dispatch _ => false
  | .irqLeave => false

/-- The host has issued its last operation and it has returned: no sequence or wait in progress, `mtx` free. The other
agents may have moves left. -/
def State.hostDone (s : State) : Bool := s.sched.all (fun m => !m.byHost) && s.seqs.isEmpty && decide (s.mtx = none)

/-- No cause stands in CTRL and no slot is pending. -/
def State.idle (s : State) : Bool :=
  decide (s.ctrl.status.rqcp = 0) && s.ctrl.status.fifo[0].entries.isEmpty && s.ctrl.status.fifo[1].entries.isEmpty
    && !s.ctrl.status.errFlag && !(s.drv.slots[0].pending || s.drv.slots[1].pending || s.drv.slots[2].pending)

/-- The run of `n` steps from `s` is over: the host is done and no fault has been raised. -/
def State.runOver (n : Nat) (s : State) : Bool := s.runReaches State.hostDone n

/-- The run of `n` steps from `s` is quiescent: over, no cause standing, no slot pending. -/
def State.quiescent (n : Nat) (s : State) : Bool := s.runReaches (fun u => u.hostDone && u.idle) n

end Sys2Proof.Machine
end

