-- ==== Sys2Proof/Certificates/Slice0/Obligations.lean ====
section
/-! DEFINITION. The statements about CANLL, each from the spec's numbered rules. A code of `R_STATUS` is written as its
number (60_exceptions R281, R283). A free value is named by its Config constant or bound by an existential: no statement
rests on its value. -/

open Host (Outcome)
open Sys2Proof Sys2Proof.Machine

/-! ### Decoding and stepping -/

/-- Command words written out from 30_encoding R98 and R100 decode to what they stand for, and the words of
95_test_vectors X1 to X5 to nothing. -/
def Obligations.DecodesSpecWords : Prop :=
  decode 0x00000001#32 = .instr .tcalc ∧ decode 0x00000011#32 = .instr .mbload ∧ decode 0x00000021#32 = .instr .qpop ∧
  decode 0x00000530#32 = .instr (.evtxc 1#2 true) ∧ decode 0x00000730#32 = .instr (.evtxc 3#2 true) ∧
  decode 0x00000131#32 = .instr (.evrxa 1#2) ∧ decode 0x00000040#32 = .instr .start ∧
  decode 0x00000049#32 = .instr .waitrx ∧ decode 0x00000056#32 = .instr .rdact ∧
  decode 0x00000000#32 = .illegal .reservedCode ∧ decode 0x00000057#32 = .illegal .reservedCode ∧
  decode 0x00000101#32 = .illegal .fieldNotZero ∧ decode 0x00000431#32 = .illegal .fieldNotZero ∧
  decode 0x00000801#32 = .illegal .reservedBits

/-- Decode and encode agree over all instructions and all command words (30_encoding R98 to R100). -/
def Obligations.DecodeIffEncode : Prop := ∀ (w : Word) (i : Instr), decode w = .instr i ↔ w = encode i

/-- A reserved bit, a reserved code, or a field its format requires to be zero raises ILLEGAL_OP and changes nothing else
(30_encoding R98, R99, R101; log 9). -/
def Obligations.ReservedEncodingsRaiseIllegalOp : Prop :=
  ∀ (a : Agent) (w : Word) (s : State),
    (w.extractLsb' 11 21 ≠ 0 ∨
      (let n := (w.extractLsb' 0 8).toNat
       n = 0x00 ∨ (0x03 ≤ n ∧ n ≤ 0x0F) ∨ (0x12 ≤ n ∧ n ≤ 0x1F) ∨ (0x24 ≤ n ∧ n ≤ 0x2F) ∨ (0x33 ≤ n ∧ n ≤ 0x3F) ∨
        (0x44 ≤ n ∧ n ≤ 0x47) ∨ (0x4A ≤ n ∧ n ≤ 0x4F) ∨ 0x57 ≤ n) ∨
      (w.extractLsb' 0 8 ≠ 0x30#8 ∧ w.extractLsb' 0 8 ≠ 0x31#8 ∧ w.extractLsb' 8 2 ≠ 0) ∨
      (w.extractLsb' 0 8 ≠ 0x30#8 ∧ w.getLsbD 10 = true)) →
    issue a w s = .next (State.setStatus 0xF0 { s with agent := a })

/-- A step whose next move is a command word of an agent that may issue runs exactly the decoded instruction, issued by
that agent; a step whose next move lets a thread carry on runs the instruction of its sequence (30_encoding R97, R99; the
list of moves is the model's, log 1). -/
def Obligations.StepRunsDecodedInstruction : Prop :=
  (∀ (s : State) (a : Agent) (w : Word) (rest : List Move) (i : Instr), s.sched = .cmd a w :: rest →
    mayIssue a s = true → decode w = .instr i → step s = exec i { s with sched := rest, agent := a }) ∧
  (∀ (s : State) (t : Nat) (k : Wake) (rest : List Move) (q : Seq), s.sched = .run t k :: rest → s.irq = none →
    seqGet t s.seqs = some q → step s = exec q.instr { s with sched := rest, agent := .thread t, wake := k })

/-- A placed command word runs at the very next step: a handler operation in interrupt context, with the sources put on
where START or STOP has it silenced, any other by a thread with no sequence in progress, outside an interrupt entry
(log 1). -/
def Obligations.PlacedCommandRunsNext : Prop :=
  ∀ (s : State) (w : Nat) (i : Instr), decodeTableWord 32 w = some i →
    step (s.withFetchWord 32 w) =
      (match i with
       | .qpush | .evtxc _ _ | .evrxa _ | .evsts =>
         exec i { s with
           agent := .interrupt
           ctrl := if s.silenced then { s.ctrl with regs := { s.ctrl.regs with irqEn := .allSix } } else s.ctrl }
       | _ => exec i { s with irq := none, agent := .thread (freshThread s.seqs) })

/-! ### The checks before an operation -/

/-- An operation issued from a context it does not belong to raises CONTEXT, whatever the session, and changes nothing
else (20_memory R68, 30_encoding R99, R100, 60_exceptions R284, R285; log 9). -/
def Obligations.WrongContextRaisesContext : Prop :=
  ∀ (i : Instr) (s : State),
    (match i with
     | .tcalc | .pricmp => False
     | .qpush | .evtxc _ _ | .evrxa _ | .evsts => s.agent ≠ .interrupt
     | _ => s.agent = .interrupt) →
    exec i s = .next (s.setStatus 0xF1)

/-- With no session, an operation that needs Driver State raises NOT_RUNNING and changes nothing else; SEND and RECEIVE
raise it after taking `mtx`, which they release (10_state R26, 30_encoding R99, 60_exceptions R283, 44_session R255, R262;
log 9, log 18). -/
def Obligations.StoppedRaisesNotRunning : Prop :=
  (∀ (i : Instr) (s : State), s.sess = .stopped → s.curSeq = none →
    (match i with
     | .tcalc | .pricmp | .start | .stop | .send | .receive => False
     | .qpush | .evtxc _ _ | .evrxa _ | .evsts => s.agent = .interrupt
     | _ => s.agent ≠ .interrupt) →
    exec i s = .next (s.setStatus 0xF2)) ∧
  (∀ (s : State) (t : Nat) (f : Frame) (timeout : Tick), s.sess = .stopped → s.agent = .thread t →
    seqGet t s.seqs = some (.send .checkRunning f timeout) →
    exec .send s = .next (State.setStatus 0xF2 { s with mtx := none, seqs := seqDrop t s.seqs })) ∧
  (∀ (s : State) (t : Nat) (timeout : Tick), s.sess = .stopped → s.agent = .thread t →
    seqGet t s.seqs = some (.receive .checkRunning timeout) →
    exec .receive s = .next (State.setStatus 0xF2 { s with mtx := none, seqs := seqDrop t s.seqs }))

/-- The faults of an operation's own rule: an index out of range, a pop from an empty queue, an empty FIFO, a received
data length code above 8; each changes nothing else (43_event_handlers R211, R214, R215, R218, 42_receive R194; log 9). -/
def Obligations.OwnFaultsChangeNothingElse : Prop :=
  (∀ (s : State) (ok : Bool), s.agent = .interrupt → s.sess = .running →
    exec (.evtxc 3#2 ok) s = .next (s.setStatus 0xF3)) ∧
  (∀ (s : State) (idx : BitVec 2), s.agent = .interrupt → s.sess = .running → 2 ≤ idx.toNat →
    exec (.evrxa idx) s = .next (s.setStatus 0xF3)) ∧
  (∀ (s : State) (idx : BitVec 2) (k : Fin 2), s.agent = .interrupt → s.sess = .running → idx.toNat = k.val →
    s.ctrl.status.fifo[k].entries = [] → exec (.evrxa idx) s = .next (s.setStatus 0xF6)) ∧
  (∀ (s : State) (idx : BitVec 2) (k : Fin 2) (m : RxMsg) (rest : List RxMsg), s.agent = .interrupt →
    s.sess = .running → idx.toNat = k.val → s.ctrl.status.fifo[k].entries = m :: rest → 8 < m.dlc.toNat →
    exec (.evrxa idx) s = .next (s.setStatus 0xF5)) ∧
  (∀ (s : State) (t : Nat), s.agent = .thread t → s.sess = .running → s.drv.rxq.len = 0 →
    exec .qpop s = .next (s.setStatus 0xF4))

/-! ### TCALC -/

/-- TCALC with the largest dividing `sum` and a prescaler in range, in any context and session: an exact reconstruction
gives OK with the split of the table, and a reconstruction that misses the rate gives LOGIC, with `R_TIM` then whatever it
is (40_timing R131, R138, R139, R141, R142, R143, R144; log 6). -/
def Obligations.TcalcFindsTimings : Prop :=
  ∀ (s : State) (sum : Nat), s.ops.rate ≠ 0 →
    let rate := s.ops.rate.toNat
    let pbs := s.ops.clk.toNat / rate
    LargestSum pbs (topSum rate) sum → 1 ≤ pbs / (1 + sum) → pbs / (1 + sum) ≤ 1024 →
    (s.ops.clk.toNat / pbs = rate → ∃ bs1 bs2 : Nat, (sum, bs1, bs2) ∈ splitTable ∧
      exec .tcalc s = .next (State.drawn (s.setRes { s.res with
        status := 0x00
        tim := ⟨BitVec.ofNat 11 (pbs / (1 + sum)), 1, BitVec.ofNat 5 bs1, BitVec.ofNat 4 bs2⟩ }))) ∧
    (s.ops.clk.toNat / pbs ≠ rate → ∃ tim : Timings,
      exec .tcalc s = .next (State.drawn (s.setRes { s.res with status := 0x05, tim := tim })))

/-- TCALC returns INVALID_BIT_RATE for a zero rate, for no dividing `sum`, and for a prescaler out of range at the first
one; `R_TIM` is then whatever it is (40_timing R132, R134, R135, U2; log 6). -/
def Obligations.TcalcRejectsRates : Prop :=
  ∀ s : State,
    let rate := s.ops.rate.toNat
    let pbs := s.ops.clk.toNat / rate
    (rate = 0 ∨ (∀ n ≤ topSum rate, 3 ≤ n → ¬(1 + n) ∣ pbs) ∨
      ∃ sum, LargestSum pbs (topSum rate) sum ∧ (pbs / (1 + sum) < 1 ∨ 1024 < pbs / (1 + sum))) →
    ∃ tim : Timings, exec .tcalc s = .next (State.drawn (s.setRes { s.res with status := 0x01, tim := tim }))

/-- The postconditions (a) to (e) of an OK (40_timing R145). -/
def Obligations.TcalcPostconditions : Prop :=
  ∀ s t : State, exec .tcalc s = .next t → t.res.status = 0x00 →
    let clk := s.ops.clk.toNat
    let rate := s.ops.rate.toNat
    let p := t.res.tim.prescaler.toNat
    let bs1 := t.res.tim.bs1.toNat
    let bs2 := t.res.tim.bs2.toNat
    let sp := (1000 * (1 + bs1)) / (1 + bs1 + bs2)
    clk / (p * (1 + bs1 + bs2)) = rate ∧ sp ≤ 900 ∧
      (1 ≤ p ∧ p ≤ 1024 ∧ 1 ≤ bs1 ∧ bs1 ≤ 16 ∧ 1 ≤ bs2 ∧ bs2 ≤ 8) ∧
      (3 ≤ bs1 + bs2 ∧ bs1 + bs2 ≤ 16 ∧ (1000000 ≤ rate → bs1 + bs2 ≤ 9)) ∧
      (750 ≤ sp ∧ (bs2 = 1 ∨ bs2 = 2) ∧ 2 ≤ bs1 ∧ bs1 ≤ 14)

/-! ### PRICMP, CANACC, MBLOAD -/

/-- The three steps of the comparator, in any context and session (41_priority R162, R163, R164). -/
def Obligations.PricmpFollowsSteps : Prop :=
  ∀ s : State,
    let a := s.ops.frm
    let b := s.ops.frmB
    let answer (r : Bool) : Outcome State Fault Refusal :=
      .next (s.setRes { s.res with status := 0x00, flag := r })
    (a.ext ≠ b.ext → a.arb11 ≠ b.arb11 → exec .pricmp s = answer (decide (a.arb11 < b.arb11))) ∧
    (a.ext ≠ b.ext → a.arb11 = b.arb11 → exec .pricmp s = answer (!a.ext)) ∧
    (a.ext = b.ext → a.mid = b.mid → a.rtr ≠ b.rtr → exec .pricmp s = answer (!a.rtr)) ∧
    (a.ext = b.ext → a.mid ≠ b.mid → exec .pricmp s = answer (decide (a.mid < b.mid))) ∧
    (a.ext = b.ext → a.mid = b.mid → a.rtr = b.rtr → exec .pricmp s = answer false)

/-- PRICMP compares the 32-bit arbitration keys (41_priority R161, R165, R166). -/
def Obligations.PricmpComparesKeys : Prop :=
  ∀ s : State,
    exec .pricmp s = .next (s.setRes { s.res with
      status := 0x00, flag := decide (s.ops.frm.key < s.ops.frmB.key) })

/-- `higherPriority` is a strict total order on the triples of format, masked identifier and RTR flag (41_priority
R165). -/
def Obligations.PriorityIsStrictTotalOrder : Prop :=
  (∀ f : Frame, higherPriority f f = false) ∧
  (∀ f g h : Frame, higherPriority f g = true → higherPriority g h = true → higherPriority f h = true) ∧
  (∀ f g : Frame, (f.ext, f.mid, f.rtr) = (g.ext, g.mid, g.rtr) → higherPriority f g = false) ∧
  (∀ f g : Frame, (f.ext, f.mid, f.rtr) ≠ (g.ext, g.mid, g.rtr) → higherPriority f g = !higherPriority g f)

/-- CANACC accepts with all slots free, refuses with all busy, and otherwise accepts exactly a frame that outranks every
pending frame; it changes nothing but its result (41_priority R168, R169, R170). Outranking is written with the arbitration
key, which is the spec's own inference from the comparator (R165, marked derived; PricmpComparesKeys). -/
def Obligations.CanaccDecides : Prop :=
  ∀ (s : State) (t : Nat), s.agent = .thread t → s.sess = .running →
    exec .canacc s = .next (s.setRes { s.res with
      status := 0x00
      flag := decide (s.ctrl.status.tme = 0b111#3 ∨ (s.ctrl.status.tme ≠ 0b000#3 ∧
        ∀ i : Fin 3, s.drv.slots[i].pending = true → s.ops.frm.key < s.drv.slots[i].frame.key)) })

/-- MBLOAD loads a well-shaped frame into the lowest slot CTRL reports free: the mailbox programmed and requested, the
slot busy, the tracker pending, `peak_mb` raised; nothing else changes (41_priority R172, R173, R174, R176,
30_encoding R106, 60_exceptions R309 CP1). -/
def Obligations.MbloadLoadsFirstFreeSlot : Prop :=
  ∀ (s : State) (t : Nat) (i : Fin 3), s.agent = .thread t → s.sess = .running →
    s.ops.frm.id.getLsbD 29 = false → s.ops.frm.dlc.toNat ≤ 8 → s.ctrl.status.tme.getLsbD i.val = true →
    (∀ j : Fin 3, j < i → s.ctrl.status.tme.getLsbD j.val = false) →
    let f := s.ops.frm
    let m : TxMailbox := ⟨f.mid, f.ext, f.rtr, f.dlc, f.wordLo, f.wordHi, true⟩
    ∃ (tme : BitVec 3) (peak : BitVec 2),
      (∀ j : Fin 3, tme.getLsbD j.val = (s.ctrl.status.tme.getLsbD j.val && decide (j ≠ i))) ∧
      peak.toNat = max s.drv.peakMb.toNat i.val ∧
      exec .mbload s = .next (State.setStatus 0x00 { s with
        ctrl :=
          { status := { s.ctrl.status with tme := tme },
            regs := { s.ctrl.regs with mbox := s.ctrl.regs.mbox.set i m } }
        drv := { s.drv with slots := s.drv.slots.set i ⟨true, f⟩, peakMb := peak } })

/-- MBLOAD refuses an error frame or a data length code above 8 before it looks at the slots, and then reports no free
slot; either way nothing else changes. CANACC does not make the shape test: its answer is the same with the ERR bit
flipped and any data length code (41_priority R171, R175, 60_exceptions R285). -/
def Obligations.MbloadRefusals : Prop :=
  ∀ (s : State) (t : Nat), s.agent = .thread t → s.sess = .running →
    ((s.ops.frm.id.getLsbD 29 = true ∨ 8 < s.ops.frm.dlc.toNat) → exec .mbload s = .next (s.setStatus 0x04)) ∧
    (s.ops.frm.id.getLsbD 29 = false → s.ops.frm.dlc.toNat ≤ 8 → s.ctrl.status.tme = 0b000#3 →
      exec .mbload s = .next (s.setStatus 0x10)) ∧
    (∀ (u : State) (dlc : BitVec 4),
      u = { s with ops := { s.ops with frm := { s.ops.frm with id := s.ops.frm.id ^^^ 0x20000000#32, dlc := dlc } } } →
      ∃ b : Bool, exec .canacc s = .next (s.setRes { s.res with status := 0x00, flag := b }) ∧
        exec .canacc u = .next (u.setRes { u.res with status := 0x00, flag := b }))

/-! ### The receive queue -/

/-- QPUSH appends the assembled frame, evicting the oldest of a full queue with a saturating count, signals `rx_ev`, and
counts real traffic only; nothing else changes (42_receive R191, R199, 43_event_handlers R225; log 7). -/
def Obligations.QpushAppends : Prop :=
  ∀ s : State, s.agent = .interrupt → s.sess = .running → s.drv.rxq.Inv →
    let e : ReceivedFrame := ⟨s.ops.frm, s.ops.rxf.loopback, s.ops.rxf.failed, s.ops.ts⟩
    let real := !e.loopback && !e.failed
    let full := decide (s.drv.rxq.len.toNat = 16)
    ∃ (q : RxQueue) (n : Word), q.Inv ∧
      q.contents = (if full then s.drv.rxq.contents.tail else s.drv.rxq.contents) ++ [e] ∧
      q.ovf.toNat = (if full then min (s.drv.rxq.ovf.toNat + 1) (2 ^ 32 - 1) else s.drv.rxq.ovf.toNat) ∧
      (real = false → n = s.drv.rxCnt) ∧
      (real = true → s.drv.rxCnt ≠ BitVec.allOnes 32 → n = s.drv.rxCnt + 1) ∧
      exec .qpush s = .next (State.drawn (State.setStatus 0x00 { s with
        drv := { s.drv with rxq := q, rxEv := true, rxCnt := n, activity := real || s.drv.activity } }))

/-- A push into a full queue lands on the oldest entry in place: head and tail coincide before and after, no other entry
moves, and the new frame is the youngest (42_receive R192). -/
def Obligations.FullPushReplacesOldest : Prop :=
  ∀ (q : RxQueue) (e : ReceivedFrame), q.Inv → q.len = 16#5 →
    q.head = q.tail ∧ (q.push e).head = (q.push e).tail ∧ (q.push e).len = 16#5 ∧
      (q.push e).tail = (if q.tail = 15#4 then 0#4 else q.tail + 1#4) ∧
      (∀ k : Fin 16, (q.push e).buf[k] = if k.val = q.tail.toNat then e else q.buf[k]) ∧
      (q.push e).contents = q.contents.tail ++ [e]

/-- QPOP returns the oldest entry and leaves the others in order; head, overflow count, storage and everything else are
unchanged (42_receive R193, R197, 20_memory R73). -/
def Obligations.QpopReturnsOldest : Prop :=
  ∀ (s : State) (t : Nat), s.agent = .thread t → s.sess = .running → s.drv.rxq.len ≠ 0 →
    ∃ (e : ReceivedFrame) (q : RxQueue), s.drv.rxq.contents = e :: q.contents ∧
      q.buf = s.drv.rxq.buf ∧ q.head = s.drv.rxq.head ∧ q.ovf = s.drv.rxq.ovf ∧ q.len = s.drv.rxq.len - 1 ∧
      exec .qpop s = .next (State.setRes { s.res with status := 0x00, rxf := e }
        { s with drv := { s.drv with rxq := q } })

/-- QRESET clears head, tail, len and ovf, and nothing else: not the storage, not `rx_ev` (42_receive R195). -/
def Obligations.QresetClearsIndices : Prop :=
  ∀ (s : State) (t : Nat), s.agent = .thread t → s.sess = .running →
    exec .qreset s = .next (State.setStatus 0x00 { s with
      drv := { s.drv with rxq := ⟨s.drv.rxq.buf, 0, 0, 0, 0⟩ } })

/-- The ring refines a list of at most sixteen frames: push, pop and reset keep the invariant and act on the contents as
on a list (42_receive R190, R191, R193, R195, 10_state R30). -/
def Obligations.RingRefinesList : Prop :=
  ∀ (q : RxQueue) (e : ReceivedFrame), q.Inv →
    q.contents.length = q.len.toNat ∧
    (q.push e).Inv ∧
    (q.contents.length < 16 → (q.push e).contents = q.contents ++ [e] ∧ (q.push e).ovf = q.ovf) ∧
    (q.contents.length = 16 → (q.push e).contents = q.contents.tail ++ [e]) ∧
    (q.contents ≠ [] → q.popped.Inv ∧ q.contents = q.oldest :: q.popped.contents) ∧
    q.cleared.Inv ∧ q.cleared.contents = []

/-! ### Diagnostic reads -/

/-- RDERR, RDTXC and RDRXC return their counters and change nothing else; their encodings (44_session R270, R272,
R273). -/
def Obligations.CounterReads : Prop :=
  (decode 0x00000050#32 = .instr .rderr ∧ decode 0x00000052#32 = .instr .rdtxc ∧
    decode 0x00000053#32 = .instr .rdrxc) ∧
  ∀ (s : State) (t : Nat), s.agent = .thread t → s.sess = .running →
    exec .rderr s = .next (s.setRes { s.res with status := 0x00, val := s.drv.errCnt }) ∧
    exec .rdtxc s = .next (s.setRes { s.res with status := 0x00, val := s.drv.txCnt }) ∧
    exec .rdrxc s = .next (s.setRes { s.res with status := 0x00, val := s.drv.rxCnt })

/-- RDOVF, RDLEC, RDPEAK and QLEN return their values zero-extended and change nothing else (44_session R271, R274, R275,
42_receive R196). -/
def Obligations.ValueReads : Prop :=
  ∀ (s : State) (t : Nat), s.agent = .thread t → s.sess = .running →
    ∃ lec peak len : Word, lec.toNat = s.drv.lastErr.toNat ∧ peak.toNat = s.drv.peakMb.toNat ∧
      len.toNat = s.drv.rxq.len.toNat ∧
      exec .rdovf s = .next (s.setRes { s.res with status := 0x00, val := s.drv.rxq.ovf }) ∧
      exec .rdlec s = .next (s.setRes { s.res with status := 0x00, val := lec }) ∧
      exec .rdpeak s = .next (s.setRes { s.res with status := 0x00, val := peak }) ∧
      exec .qlen s = .next (s.setRes { s.res with status := 0x00, val := len })

/-- RDACT returns the flag and clears it in one step, so a second RDACT reads 0 (44_session R276). -/
def Obligations.RdactReadsAndClears : Prop :=
  ∀ (s : State) (t : Nat), s.agent = .thread t → s.sess = .running →
    ∃ u v : State,
      u = State.setRes { s.res with status := 0x00, flag := s.drv.activity }
        { s with drv := { s.drv with activity := false } } ∧
      exec .rdact s = .next u ∧ exec .rdact u = .next v ∧ v.res.flag = false

/-! ### The handlers -/

/-- EVTXC: statistics on success only, a loopback report if the option is set and the slot was pending, the pending flag
cleared, `tx_ev` signalled; nothing else changes (43_event_handlers R212, R213; log 7). -/
def Obligations.EvtxcCompletesSlot : Prop :=
  ∀ (s : State) (idx : BitVec 2) (i : Fin 3) (ok : Bool), s.agent = .interrupt → s.sess = .running → idx.toNat = i.val →
    let report := s.drv.loopback && s.drv.slots[i].pending
    ∃ n : Word, (ok = false → n = s.drv.txCnt) ∧
      (ok = true → s.drv.txCnt ≠ BitVec.allOnes 32 → n = s.drv.txCnt + 1) ∧
      exec (.evtxc idx ok) s = .next (State.drawn (State.setStatus 0x00 { s with
        drv := { s.drv with
          rxq := if report then s.drv.rxq.push ⟨s.drv.slots[i].frame, true, !ok, s.ops.ts⟩ else s.drv.rxq
          slots := s.drv.slots.set i ⟨false, s.drv.slots[i].frame⟩
          txCnt := n
          activity := ok || s.drv.activity
          rxEv := report || s.drv.rxEv
          txEv := true } }))

/-- EVRXA: a standing overflow flag counted, the head entry decoded, stamped with `now`, released and pushed as real
traffic; nothing else changes (43_event_handlers R215, R216, R217, R225, 30_encoding R107, 20_memory R64; log 7). For a
standard-format head with bits 28:11 of `idval` set, which R107 does not foresee, that they are copied into the identifier
word unmasked is the model's choice (log 12). -/
def Obligations.EvrxaReceivesFrame : Prop :=
  ∀ (s : State) (idx : BitVec 2) (k : Fin 2) (m : RxMsg) (rest : List RxMsg), s.agent = .interrupt → s.sess = .running →
    idx.toNat = k.val → s.ctrl.status.fifo[k].entries = m :: rest → m.dlc.toNat ≤ 8 →
    let f : Frame :=
      ⟨BitVec.ofBool m.ide ++ BitVec.ofBool m.rtr ++ 0#1 ++ m.idval, m.dlc,
        #v[m.wordLo.extractLsb' 0 8, m.wordLo.extractLsb' 8 8, m.wordLo.extractLsb' 16 8, m.wordLo.extractLsb' 24 8,
           m.wordHi.extractLsb' 0 8, m.wordHi.extractLsb' 8 8, m.wordHi.extractLsb' 16 8, m.wordHi.extractLsb' 24 8]⟩
    ∃ n ovf : Word, (s.drv.rxCnt ≠ BitVec.allOnes 32 → n = s.drv.rxCnt + 1) ∧
      ovf.toNat = (if s.ctrl.status.fifo[k].overflow then min (s.drv.rxq.ovf.toNat + 1) (2 ^ 32 - 1)
        else s.drv.rxq.ovf.toNat) ∧
      exec (.evrxa idx) s = .next (State.drawn (State.setStatus 0x00 { s with
        drv := { s.drv with
          rxq := RxQueue.push ⟨f, false, false, s.now⟩ { s.drv.rxq with ovf := ovf }
          rxCnt := n
          activity := true
          rxEv := true }
        ctrl := { s.ctrl with status := { s.ctrl.status with
          fifo := s.ctrl.status.fifo.set k { s.ctrl.status.fifo[k] with entries := rest } } } }))

/-- EVSTS: the error flag cleared; at bus-off the abort of all slots requested, `tx_ev` signalled, every pending flag
cleared and, with loopback, failed reports pushed in slot order; a non-zero last-error code recorded and counted, bus-off
or not; nothing else changes (43_event_handlers R220, R221, R222, R223; log 7, log 15). -/
def Obligations.EvstsHandlesStatus : Prop :=
  ∀ s : State, s.agent = .interrupt → s.sess = .running →
    let off := s.ctrl.status.busOff
    let lec := s.ctrl.status.lec
    let reports := if off then s.drv.abortReports s.ops.ts else []
    ∃ (n : Word) (slots : Vector Slot 3),
      (lec = 0 → n = s.drv.errCnt) ∧ (lec ≠ 0 → s.drv.errCnt ≠ BitVec.allOnes 32 → n = s.drv.errCnt + 1) ∧
      (∀ i : Fin 3, slots[i] = ⟨s.drv.slots[i].pending && !off, s.drv.slots[i].frame⟩) ∧
      exec .evsts s = .next (State.drawn (State.setStatus 0x00 { s with
        ctrl := { s.ctrl with status := { s.ctrl.status with
          errFlag := false, abrq := if off then 0b111#3 else s.ctrl.status.abrq } }
        drv := { s.drv with
          rxq := s.drv.rxq.pushAll reports
          slots := slots
          rxEv := !reports.isEmpty || s.drv.rxEv
          txEv := off || s.drv.txEv
          lastErr := if lec = 0 then s.drv.lastErr else lec
          errCnt := n } }))

/-! ### The waits -/

/-- WAITTX and WAITRX are issued in a session by a thread with nothing in progress: the tick and the budget are noted,
nothing else changes (43_event_handlers R228, R229; log 22). -/
def Obligations.WaitsAreIssued : Prop :=
  ∀ (s : State) (t : Nat), s.agent = .thread t → s.sess = .running → seqGet t s.seqs = none →
    exec .waittx s = .next { s with seqs := seqPut t (.waitTx s.now s.ops.tmo) s.seqs } ∧
    exec .waitrx s = .next { s with seqs := seqPut t (.waitRx s.now s.ops.tmo) s.seqs }

/-- A wait completes signalled (the latch set: cleared, OK), expired (`(now - t_i) mod 2^32 >= budget`: WAIT_TIMEOUT) or
spuriously (OK), whichever its move tries and R228 enables, and otherwise stays blocked (43_event_handlers R228, R229;
log 22). -/
def Obligations.WaitsComplete : Prop :=
  ∀ (s : State) (t : Nat) (ti budget : Tick), s.agent = .thread t →
    let ended (u : State) : State := { u with seqs := seqDrop t s.seqs }
    (seqGet t s.seqs = some (.waitTx ti budget) →
      exec .waittx s = .next
        (match s.wake with
         | .signalled =>
           if s.drv.txEv then (ended { s with drv := { s.drv with txEv := false } }).setStatus 0x00 else s
         | .expired => if budget.toNat ≤ (s.now - ti).toNat then (ended s).setStatus 0x13 else s
         | .spurious => (ended s).setStatus 0x00)) ∧
    (seqGet t s.seqs = some (.waitRx ti budget) →
      exec .waitrx s = .next
        (match s.wake with
         | .signalled =>
           if s.drv.rxEv then (ended { s with drv := { s.drv with rxEv := false } }).setStatus 0x00 else s
         | .expired => if budget.toNat ≤ (s.now - ti).toNat then (ended s).setStatus 0x13 else s
         | .spurious => (ended s).setStatus 0x00))

/-! ### The sequences -/

/-- START, STOP, SEND and RECEIVE begin at the write of CMD, in either session state: the thread notes its operands and
stands before `acquire(mtx)`; nothing else changes (30_encoding R97, 10_state R22, 44_session R241, R250, R255, R262;
log 17, log 18, log 20). -/
def Obligations.SequencesBegin : Prop :=
  ∀ (s : State) (t : Nat), s.agent = .thread t → seqGet t s.seqs = none →
    let begun (q : Seq) : Outcome State Fault Refusal := .next { s with seqs := seqPut t q s.seqs }
    exec .start s = begun (.start .acquire s.ops.clk s.ops.rate s.ops.opt) ∧
    exec .stop s = begun (.stop .acquire) ∧
    exec .send s = begun (.send .acquire s.ops.frm s.ops.tmo) ∧
    exec .receive s = begun (.receive .acquire s.ops.tmo)

/-- `acquire(mtx)` of the four sequences: with the lock free the thread becomes the owner and goes on; otherwise nothing
changes (10_state R45, 20_memory R70; log 17, log 19). -/
def Obligations.AcquireTakesFreeLock : Prop :=
  ∀ (s : State) (t : Nat), s.agent = .thread t →
    let go (q : Seq) : Outcome State Fault Refusal :=
      .next (if s.mtx = none then { s with mtx := some t, seqs := seqPut t q s.seqs } else s)
    (∀ clk rate opt, seqGet t s.seqs = some (.start .acquire clk rate opt) →
      exec .start s = go (.start .hwEnable clk rate opt)) ∧
    (seqGet t s.seqs = some (.stop .acquire) → exec .stop s = go (.stop .irqOff)) ∧
    (∀ f timeout, seqGet t s.seqs = some (.send .acquire f timeout) →
      exec .send s = go (.send .checkRunning f timeout)) ∧
    (∀ timeout, seqGet t s.seqs = some (.receive .acquire timeout) →
      exec .receive s = go (.receive .checkRunning timeout))

/-- START from the lock to the constructed Driver State: the one-time enable, sources off, the old session gone, the
initialization request, the bounded poll with INIT_MODE_NOT_ENTERED at its end, the fresh Driver State (44_session R241,
R242, R243, R244; the order of the enable and its guard, the stored value of no Driver State and the recording of CTRL's
commands are log 17, log 3 and log 13). -/
def Obligations.StartEntersInitialization : Prop :=
  ∀ (s : State) (t : Nat) (p : StartPos) (clk rate : Word) (opt : StartOpts), s.agent = .thread t →
    seqGet t s.seqs = some (.start p clk rate opt) →
    let on (q : StartPos) (u : State) : Outcome State Fault Refusal :=
      .next { u with seqs := seqPut t (.start q clk rate opt) s.seqs }
    (p = .hwEnable → s.hwEnabled = false →
      exec .start s = on .irqOff { s with
        hwEnabled := true
        ctrl := { s.ctrl with regs := { s.ctrl.regs with enables := s.ctrl.regs.enables + 1 } } }) ∧
    (p = .hwEnable → s.hwEnabled = true → exec .start s = on .irqOff s) ∧
    (p = .irqOff → exec .start s = on .sessStop { s with
        ctrl := { s.ctrl with regs := { s.ctrl.regs with irqEn := .none } } }) ∧
    (p = .sessStop → exec .start s = on .reqInit { s with sess := .stopped, drv := Driver.absent }) ∧
    (p = .reqInit → exec .start s = on (.pollEnter 0) { s with
        ctrl := { s.ctrl with regs := { s.ctrl.regs with
          initReq := true, lowPower := false, autoBusOff := true, autoWake := true } } }) ∧
    (∀ n, p = .pollEnter n → s.ctrl.status.initAck = true → exec .start s = on .construct s) ∧
    (∀ n, p = .pollEnter n → s.ctrl.status.initAck = false →
      exec .start s =
        if n + 1 < Config.initRetryBound then on (.pollEnter (n + 1)) s
        else .next (State.setStatus 0x02 { s with mtx := none, seqs := seqDrop t s.seqs })) ∧
    (p = .construct → ∃ d : Driver, d.rxq.head = 0 ∧ d.rxq.tail = 0 ∧ d.rxq.len = 0 ∧ d.rxq.ovf = 0 ∧
      (∀ i : Fin 3, d.slots[i].pending = false) ∧ d.peakMb = 0 ∧ d.errCnt = 0 ∧ d.txCnt = 0 ∧ d.rxCnt = 0 ∧
      d.lastErr = 0 ∧ d.activity = false ∧ d.txEv = false ∧ d.rxEv = false ∧ d.loopback = opt.loopback ∧
      exec .start s = on .tcalc { s with drv := d, freeIdx := s.freeIdx + 1 })

/-- START from the calculation to its return: TCALC on its own operands with its failure codes, the timings and the
silent flag to CTRL, the session running before the sources go on, the exit from initialization with its bounded poll and
INIT_MODE_NOT_CLEARED, the filter, OK (44_session R241, R245, R246, R247, R248, R249; log 3, log 13, log 17). -/
def Obligations.StartLeavesInitialization : Prop :=
  ∀ (s : State) (t : Nat) (p : StartPos) (clk rate : Word) (opt : StartOpts), s.agent = .thread t →
    seqGet t s.seqs = some (.start p clk rate opt) →
    let on (q : StartPos) (u : State) : Outcome State Fault Refusal :=
      .next { u with seqs := seqPut t (.start q clk rate opt) s.seqs }
    let back (c : Byte) (u : State) : Outcome State Fault Refusal :=
      .next (State.setStatus c { u with mtx := none, seqs := seqDrop t s.seqs })
    (p = .tcalc → ∃ tim : Timings, (∀ x, timingCalc clk.toNat rate.toNat = .ok x → tim = x) ∧
      exec .start s = on (.checkTim (timingCalc clk.toNat rate.toNat)) { s with
        resT := { s.resT with tim := tim }, freeIdx := s.freeIdx + 1 }) ∧
    (∀ tim, p = .checkTim (.ok tim) → exec .start s = on (.setTiming tim) s) ∧
    (p = .checkTim .invalidBitRate → exec .start s = back 0x01 { s with sess := .stopped, drv := Driver.absent }) ∧
    (p = .checkTim .logic → exec .start s = back 0x05 { s with sess := .stopped, drv := Driver.absent }) ∧
    (∀ tim, p = .setTiming tim → exec .start s = on .sessRun { s with
        ctrl := { s.ctrl with regs := { s.ctrl.regs with timing := tim, silent := opt.silent } } }) ∧
    (p = .sessRun → exec .start s = on .irqOn { s with sess := .running }) ∧
    (p = .irqOn → exec .start s = on .reqExit { s with
        ctrl := { s.ctrl with regs := { s.ctrl.regs with irqEn := .allSix } } }) ∧
    (p = .reqExit → exec .start s = on (.pollExit 0) { s with
        ctrl := { s.ctrl with regs := { s.ctrl.regs with initReq := false } } }) ∧
    (∀ n, p = .pollExit n → s.ctrl.status.initAck = false → exec .start s = on .filter s) ∧
    (∀ n, p = .pollExit n → s.ctrl.status.initAck = true →
      exec .start s =
        if n + 1 < Config.initRetryBound then on (.pollExit (n + 1)) s else on .failExit s) ∧
    (p = .failExit → exec .start s = on .failStop { s with
        ctrl := { s.ctrl with regs := { s.ctrl.regs with irqEn := .none } } }) ∧
    (p = .failStop → exec .start s = on .failReturn { s with sess := .stopped, drv := Driver.absent }) ∧
    (p = .failReturn → exec .start s = back 0x03 s) ∧
    (p = .filter → exec .start s = on .finish { s with
        ctrl := { s.ctrl with regs := { s.ctrl.regs with acceptAll := true } } }) ∧
    (p = .finish → exec .start s = back 0x00 s)

/-- START as a whole, by the steps of the machine: issued by a thread with the lock free, outside an interrupt entry,
with CTRL acknowledging each mode request, and timings that exist, it returns OK with a fresh running session, CTRL
programmed and released, the lock free (44_session R240, R241, R244 to R249, 10_state R48; log 1, log 13, log 17). -/
def Obligations.StartCompletes : Prop :=
  ∀ (s : State) (t : Nat) (k : Wake) (tim : Timings) (rest : List Move), s.irq = none → s.mtx = none →
    seqGet t s.seqs = none → timingCalc s.ops.clk.toNat s.ops.rate.toNat = .ok tim →
    s.sched = startMoves t k ++ rest →
    ∃ u : State, Host.Core.run core (startMoves t k).length s = .next u ∧
      u.sched = rest ∧ u.sess = .running ∧ u.hwEnabled = true ∧ u.mtx = none ∧ seqGet t u.seqs = none ∧
      u.resT.status = 0x00 ∧ u.resT.tim = tim ∧ u.resI = s.resI ∧ u.ops = s.ops ∧ u.now = s.now ∧
      u.drv.loopback = s.ops.opt.loopback ∧ u.drv.rxq.head = 0 ∧ u.drv.rxq.tail = 0 ∧ u.drv.rxq.len = 0 ∧
      u.drv.rxq.ovf = 0 ∧ (∀ i : Fin 3, u.drv.slots[i].pending = false) ∧ u.drv.errCnt = 0 ∧ u.drv.txCnt = 0 ∧ u.drv.rxCnt = 0 ∧
      u.drv.lastErr = 0 ∧ u.drv.peakMb = 0 ∧ u.drv.activity = false ∧ u.drv.txEv = false ∧ u.drv.rxEv = false ∧
      u.ctrl.regs.timing = tim ∧ u.ctrl.regs.silent = s.ops.opt.silent ∧ u.ctrl.regs.irqEn = .allSix ∧
      u.ctrl.regs.initReq = false ∧ u.ctrl.regs.acceptAll = true ∧
      u.ctrl.regs.enables = s.ctrl.regs.enables + (if s.hwEnabled then 0 else 1)

/-- A START that returns any failure code leaves the session Stopped and no Driver State, whatever the state before
(44_session R240, 70_reset R334; `Driver.absent` stands for no Driver State, log 3). -/
def Obligations.FailedStartLeavesStopped : Prop :=
  ∀ (s u : State) (t : Nat) (p : StartPos) (clk rate : Word) (opt : StartOpts), s.LockInv → s.SessionInv →
    s.agent = .thread t → seqGet t s.seqs = some (.start p clk rate opt) → exec .start s = .next u →
    seqGet t u.seqs = none → u.resT.status ≠ 0x00 →
    u.sess = .stopped ∧ u.drv = Driver.absent ∧ u.mtx = none

/-- STOP line by line: sources off, the session gone, low-power mode, every pending cause cleared, OK and the lock free
(44_session R250, R251, 10_state R46; log 3, log 13, log 17). -/
def Obligations.StopFollowsText : Prop :=
  ∀ (s : State) (t : Nat) (p : StopPos), s.agent = .thread t → seqGet t s.seqs = some (.stop p) →
    let on (q : StopPos) (u : State) : Outcome State Fault Refusal :=
      .next { u with seqs := seqPut t (.stop q) s.seqs }
    (p = .irqOff → exec .stop s = on .sessStop { s with
        ctrl := { s.ctrl with regs := { s.ctrl.regs with irqEn := .none } } }) ∧
    (p = .sessStop → exec .stop s = on .lowPower { s with sess := .stopped, drv := Driver.absent }) ∧
    (p = .lowPower → exec .stop s = on .clearIrq { s with
        ctrl := { s.ctrl with regs := { s.ctrl.regs with lowPower := true } } }) ∧
    (p = .clearIrq → exec .stop s = on .finish { s with
        ctrl := { s.ctrl with status := { s.ctrl.status with
          rqcp := 0
          errFlag := false
          fifo := #v[⟨[], s.ctrl.status.fifo[0].overflow⟩, ⟨[], s.ctrl.status.fifo[1].overflow⟩] } } }) ∧
    (p = .finish → exec .stop s = .next (State.setStatus 0x00 { s with mtx := none, seqs := seqDrop t s.seqs }))

/-- STOP as a whole, by the steps of the machine, from either session state: OK, Stopped, Driver State gone, no cause
standing, the lock free, `hw_enabled` as it was (44_session R240, R250, 10_state R46, R48; log 1, log 3, log 13,
log 17). -/
def Obligations.StopCompletes : Prop :=
  ∀ (s : State) (t : Nat) (k : Wake) (rest : List Move), s.irq = none → s.mtx = none → seqGet t s.seqs = none →
    s.sched = .cmd (.thread t) 0x00000041#32 :: carryOns t k 6 ++ rest →
    ∃ u : State, Host.Core.run core 7 s = .next u ∧ u.sched = rest ∧ u.sess = .stopped ∧ u.drv = Driver.absent ∧
      u.mtx = none ∧ seqGet t u.seqs = none ∧ u.resT.status = 0x00 ∧ u.hwEnabled = s.hwEnabled ∧
      u.ctrl.regs.irqEn = .none ∧ u.ctrl.regs.lowPower = true ∧ u.ctrl.status.rqcp = 0 ∧ u.ctrl.status.errFlag = false ∧
      (∀ k : Fin 2, u.ctrl.status.fifo[k].entries = []) ∧ u.ops = s.ops ∧ u.resI = s.resI ∧ u.now = s.now

/-- SEND line by line (44_session R255, R256, R257, R258): the session, `t0`, CANACC, MBLOAD, its two returns, the elapsed
time, the timeout, the wait on the remainder, whose result is not looked at; log 17, log 22. That CANACC, MBLOAD and the
wait leave the result registers as they were until SEND returns is the model's choice (log 21). -/
def Obligations.SendFollowsText : Prop :=
  ∀ (s : State) (t : Nat) (p : SendPos) (f : Frame) (timeout : Tick), s.agent = .thread t →
    seqGet t s.seqs = some (.send p f timeout) →
    let on (q : SendPos) (u : State) : Outcome State Fault Refusal :=
      .next { u with seqs := seqPut t (.send q f timeout) s.seqs }
    let back (c : Byte) : Outcome State Fault Refusal :=
      .next (State.setStatus c { s with mtx := none, seqs := seqDrop t s.seqs })
    (p = .checkRunning → s.sess = .running → exec .send s = on .entry s) ∧
    (p = .entry → exec .send s = on (.canacc s.now) s) ∧
    (∀ t0, p = .canacc t0 → canAccept f s.ctrl.status.tme s.drv.slots = true → exec .send s = on (.mbload t0) s) ∧
    (∀ t0, p = .canacc t0 → canAccept f s.ctrl.status.tme s.drv.slots = false →
      exec .send s = on (.tail t0 .elapsed) s) ∧
    (∀ t0, p = .mbload t0 → exec .send s = on (.loaded t0 (loadMailbox f s).1) (loadMailbox f s).2) ∧
    (∀ t0, p = .loaded t0 .ok → exec .send s = back 0x00) ∧
    (∀ t0, p = .loaded t0 .unsupportedFrame → exec .send s = back 0x04) ∧
    (∀ t0, p = .loaded t0 .noFreeSlot → exec .send s = on (.tail t0 .elapsed) s) ∧
    (∀ t0, p = .tail t0 .elapsed → exec .send s = on (.tail t0 (.check (s.now - t0))) s) ∧
    (∀ t0 e, p = .tail t0 (.check e) → timeout.toNat ≤ e.toNat → exec .send s = back 0x11) ∧
    (∀ t0 e, p = .tail t0 (.check e) → e.toNat < timeout.toNat → exec .send s = on (.tail t0 (.issueWait e)) s) ∧
    (∀ t0 e, p = .tail t0 (.issueWait e) → exec .send s = on (.tail t0 (.wait s.now (timeout - e))) s) ∧
    (∀ t0 ti b, p = .tail t0 (.wait ti b) → s.wake = .signalled → s.drv.txEv = true →
      exec .send s = on (.canacc t0) { s with drv := { s.drv with txEv := false } }) ∧
    (∀ t0 ti b, p = .tail t0 (.wait ti b) →
      (s.wake = .spurious ∨ (s.wake = .expired ∧ b.toNat ≤ (s.now - ti).toNat)) → exec .send s = on (.canacc t0) s) ∧
    (∀ t0 ti b, p = .tail t0 (.wait ti b) →
      ((s.wake = .signalled ∧ s.drv.txEv = false) ∨ (s.wake = .expired ∧ (s.now - ti).toNat < b.toNat)) →
      exec .send s = .next s)

/-- SEND as a whole with all slots free and a well-shaped frame: it returns OK at once, slot 0 loaded, without a wait
(44_session R255, 41_priority R169, R172; 95_test_vectors S7; log 1, log 17). -/
def Obligations.SendLoadsAtOnce : Prop :=
  ∀ (s : State) (t : Nat) (k : Wake) (rest : List Move), s.irq = none → s.mtx = none → seqGet t s.seqs = none →
    s.sess = .running → s.ctrl.status.tme = 0b111#3 → s.ops.frm.unsupported = false →
    s.sched = .cmd (.thread t) 0x00000042#32 :: carryOns t k 6 ++ rest →
    ∃ u : State, Host.Core.run core 7 s = .next u ∧ u.sched = rest ∧ u.resT.status = 0x00 ∧ u.mtx = none ∧
      seqGet t u.seqs = none ∧ u.drv = { s.drv with slots := s.drv.slots.set 0 ⟨true, s.ops.frm⟩ } ∧
      u.ctrl.status = { s.ctrl.status with tme := 0b110#3 } ∧ u.ctrl.regs.mbox[0] = mailboxOf s.ops.frm ∧
      u.sess = .running ∧ u.hwEnabled = s.hwEnabled ∧ u.ops = s.ops ∧ u.resI = s.resI ∧ u.now = s.now

/-- RECEIVE line by line (44_session R262): the session, `t0`, the atomic test and pop, the elapsed time, the timeout with
NO_DATA (`R_RXF` then whatever it is), the wait on the remainder; log 6, log 17, log 22. That the wait leaves the result
registers as they were is the model's choice (log 21). -/
def Obligations.ReceiveFollowsText : Prop :=
  ∀ (s : State) (t : Nat) (p : RecvPos) (timeout : Tick), s.agent = .thread t →
    seqGet t s.seqs = some (.receive p timeout) →
    let on (q : RecvPos) (u : State) : Outcome State Fault Refusal :=
      .next { u with seqs := seqPut t (.receive q timeout) s.seqs }
    (p = .checkRunning → s.sess = .running → exec .receive s = on .entry s) ∧
    (p = .entry → exec .receive s = on (.tryPop s.now) s) ∧
    (∀ t0, p = .tryPop t0 → s.drv.rxq.len = 0 → exec .receive s = on (.tail t0 .elapsed) s) ∧
    (∀ t0, p = .tryPop t0 → s.drv.rxq.len ≠ 0 → ∃ (e : ReceivedFrame) (q : RxQueue),
      s.drv.rxq.contents = e :: q.contents ∧ q.len = s.drv.rxq.len - 1 ∧ q.ovf = s.drv.rxq.ovf ∧
      exec .receive s = .next { s with
        resT := { s.resT with status := 0x00, rxf := e }, drv := { s.drv with rxq := q }, mtx := none,
        seqs := seqDrop t s.seqs }) ∧
    (∀ t0, p = .tail t0 .elapsed → exec .receive s = on (.tail t0 (.check (s.now - t0))) s) ∧
    (∀ t0 e, p = .tail t0 (.check e) → timeout.toNat ≤ e.toNat → ∃ x : ReceivedFrame,
      exec .receive s = .next { s with
        resT := { s.resT with status := 0x12, rxf := x }, mtx := none, seqs := seqDrop t s.seqs,
        freeIdx := s.freeIdx + 1 }) ∧
    (∀ t0 e, p = .tail t0 (.check e) → e.toNat < timeout.toNat → exec .receive s = on (.tail t0 (.issueWait e)) s) ∧
    (∀ t0 e, p = .tail t0 (.issueWait e) → exec .receive s = on (.tail t0 (.wait s.now (timeout - e))) s) ∧
    (∀ t0 ti b, p = .tail t0 (.wait ti b) → s.wake = .signalled → s.drv.rxEv = true →
      exec .receive s = on (.tryPop t0) { s with drv := { s.drv with rxEv := false } }) ∧
    (∀ t0 ti b, p = .tail t0 (.wait ti b) →
      (s.wake = .spurious ∨ (s.wake = .expired ∧ b.toNat ≤ (s.now - ti).toNat)) → exec .receive s = on (.tryPop t0) s) ∧
    (∀ t0 ti b, p = .tail t0 (.wait ti b) →
      ((s.wake = .signalled ∧ s.drv.rxEv = false) ∨ (s.wake = .expired ∧ (s.now - ti).toNat < b.toNat)) →
      exec .receive s = .next s)

/-- RECEIVE as a whole with a frame in the queue: it returns OK with the oldest frame, the others in order, without a
wait (44_session R262, R263, 42_receive R193; 95_test_vectors S8; log 1, log 17). -/
def Obligations.ReceiveReturnsOldest : Prop :=
  ∀ (s : State) (t : Nat) (k : Wake) (rest : List Move) (e : ReceivedFrame) (l : List ReceivedFrame), s.irq = none →
    s.mtx = none → seqGet t s.seqs = none → s.sess = .running → s.drv.rxq.contents = e :: l →
    s.sched = .cmd (.thread t) 0x00000043#32 :: carryOns t k 4 ++ rest →
    ∃ u : State, Host.Core.run core 5 s = .next u ∧ u.sched = rest ∧ u.resT.status = 0x00 ∧ u.resT.rxf = e ∧
      u.drv.rxq.contents = l ∧ u.drv = { s.drv with rxq := u.drv.rxq } ∧ u.mtx = none ∧ seqGet t u.seqs = none ∧
      u.ctrl = s.ctrl ∧ u.sess = .running ∧ u.hwEnabled = s.hwEnabled ∧ u.ops = s.ops ∧ u.resI = s.resI ∧ u.now = s.now

/-- NOT_SENT and NO_DATA are returned only where the elapsed time was tested and had reached the timeout (44_session R258,
R259, R263). -/
def Obligations.TimeoutsNeverEarly : Prop :=
  (∀ (s u : State) (t : Nat) (p : SendPos) (f : Frame) (timeout : Tick), s.agent = .thread t →
    seqGet t s.seqs = some (.send p f timeout) → exec .send s = .next u → seqGet t u.seqs = none →
    u.resT.status = 0x11 → ∃ t0 e, p = .tail t0 (.check e) ∧ timeout.toNat ≤ e.toNat) ∧
  (∀ (s u : State) (t : Nat) (p : RecvPos) (timeout : Tick), s.agent = .thread t →
    seqGet t s.seqs = some (.receive p timeout) → exec .receive s = .next u → seqGet t u.seqs = none →
    u.resT.status = 0x12 → ∃ t0 e, p = .tail t0 (.check e) ∧ timeout.toNat ≤ e.toNat)

/-! ### Frames and whole-machine rules -/

/-- No operation writes an operand register, the tick clock, the interrupt entry or the agents' moves, whoever issues it
(10_state R22, 60_exceptions R296). -/
def Obligations.OperationsKeepInputs : Prop :=
  ∀ (i : Instr) (s t : State), exec i s = .next t →
    t.ops = s.ops ∧ t.now = s.now ∧ t.irq = s.irq ∧ t.sched = s.sched ∧ t.agent = s.agent ∧ t.wake = s.wake

/-- An operation of one context leaves the other context's result registers alone, and an operation in interrupt context
leaves the lock and every thread's sequence alone (10_state R23, 60_exceptions R290, R295). -/
def Obligations.ContextsAreSeparate : Prop :=
  ∀ (i : Instr) (s t : State), exec i s = .next t →
    (s.agent = .interrupt → t.resT = s.resT ∧ t.mtx = s.mtx ∧ t.seqs = s.seqs) ∧
    (s.agent ≠ .interrupt → t.resI = s.resI)

/-- No thread-context operation but START and STOP, which end the session, clears a pending flag, and none signals an
event (10_state R33, 90_conflicts C6, 43_event_handlers R227). -/
def Obligations.ThreadsNeverCompleteOrSignal : Prop :=
  ∀ (i : Instr) (s t : State), s.agent ≠ .interrupt → exec i s = .next t →
    (i ≠ .start → i ≠ .stop → ∀ k : Fin 3, s.drv.slots[k].pending = true → t.drv.slots[k].pending = true) ∧
    (t.drv.txEv = true → s.drv.txEv = true) ∧ (t.drv.rxEv = true → s.drv.rxEv = true)

/-- What no handler does: none changes the session, the loopback option, `peak_mb` or `hw_enabled`, none programs a
transmit slot, none lowers the queue's length (43_event_handlers R224). -/
def Obligations.HandlersLeaveSession : Prop :=
  ∀ (i : Instr) (s t : State), s.agent = .interrupt → s.drv.rxq.Inv → exec i s = .next t →
    t.sess = s.sess ∧ t.drv.loopback = s.drv.loopback ∧ t.drv.peakMb = s.drv.peakMb ∧ t.hwEnabled = s.hwEnabled ∧
      t.ctrl.regs = s.ctrl.regs ∧ t.ctrl.status.tme = s.ctrl.status.tme ∧ s.drv.rxq.len.toNat ≤ t.drv.rxq.len.toNat

/-- The overflow counter saturates: no operation but QRESET, START and STOP ever lowers it (10_state R31, 42_receive R195,
R199). -/
def Obligations.OverflowNeverFalls : Prop :=
  ∀ (i : Instr) (s t : State), i ≠ .qreset → i ≠ .start → i ≠ .stop → exec i s = .next t →
    s.drv.rxq.ovf.toNat ≤ t.drv.rxq.ovf.toNat

/-- The frame of SEND and RECEIVE, move by move: SEND touches Driver State and CTRL only through MBLOAD and the
consumption of `tx_ev`, RECEIVE only through QPOP and the consumption of `rx_ev`; of the results only `R_STATUS`, and
`R_RXF` for RECEIVE (44_session R259 d, R262). That the operations inside write no result register of their own, so that
`R_FLAG` survives SEND's CANACC, is the model's choice (log 21). -/
def Obligations.SendReceiveFrame : Prop :=
  (∀ s t : State, exec .send s = .next t →
    t.sess = s.sess ∧ t.hwEnabled = s.hwEnabled ∧ t.resT = { s.resT with status := t.resT.status } ∧
      t.drv = { s.drv with slots := t.drv.slots, peakMb := t.drv.peakMb, txEv := t.drv.txEv } ∧
      t.ctrl = { status := { s.ctrl.status with tme := t.ctrl.status.tme },
                 regs := { s.ctrl.regs with mbox := t.ctrl.regs.mbox } } ∧ t.freeIdx = s.freeIdx) ∧
  (∀ s t : State, exec .receive s = .next t →
    t.sess = s.sess ∧ t.hwEnabled = s.hwEnabled ∧
      t.resT = { s.resT with status := t.resT.status, rxf := t.resT.rxf } ∧
      t.drv = { s.drv with
        rxq := { s.drv.rxq with tail := t.drv.rxq.tail, len := t.drv.rxq.len }, rxEv := t.drv.rxEv } ∧
      t.ctrl = s.ctrl)

/-- The frame of START and STOP, move by move: of the results only `R_STATUS` and, for START, `R_TIM`; CTRL's status ports
only where STOP clears pending requests; transmit mailboxes never (44_session R241, R250, 10_state R23; log 13, log 21). -/
def Obligations.StartStopFrame : Prop :=
  (∀ s t : State, exec .start s = .next t →
    t.resT = { s.resT with status := t.resT.status, tim := t.resT.tim } ∧ t.ctrl.status = s.ctrl.status ∧
      t.ctrl.regs.mbox = s.ctrl.regs.mbox) ∧
  (∀ s t : State, exec .stop s = .next t →
    t.resT = { s.resT with status := t.resT.status } ∧ t.hwEnabled = s.hwEnabled ∧ t.freeIdx = s.freeIdx ∧
      t.ctrl.status = { s.ctrl.status with
        rqcp := t.ctrl.status.rqcp, errFlag := t.ctrl.status.errFlag, fifo := t.ctrl.status.fifo } ∧
      (∀ k : Fin 2, t.ctrl.status.fifo[k].overflow = s.ctrl.status.fifo[k].overflow) ∧
      t.ctrl.regs = { s.ctrl.regs with irqEn := t.ctrl.regs.irqEn, lowPower := t.ctrl.regs.lowPower })

/-- The inputs: a load writes one operand register, and the four words of a Frame register the frame they lay out, reserved
bits dropped; a tick moves `now`; a move of CTRL changes the ports it stands for and nothing of CANLL's: a completion or an
abort frees its slot alone, no move makes a slot busy in a session (10_state R22, 30_encoding R93, R103, 20_memory R64,
60_exceptions R296, R309 CP1, CP5; when the request bits drop and what sets the error flag are the model's, log 12, log 15;
log 1, log 14, log 20). -/
def Obligations.InputMovesChangeInputsOnly : Prop :=
  (∀ (s : State) (a : Agent) (o : OperandWrite) (rest : List Move), s.sched = .load a o :: rest → mayIssue a s = true →
    step s = .next { s with sched := rest, ops := s.ops.load o }) ∧
  (∀ (r : OperandRegs) (w0 w1 w2 w3 : Word),
    let f : Frame :=
      ⟨w0, w1.extractLsb' 0 4,
        #v[w2.extractLsb' 0 8, w2.extractLsb' 8 8, w2.extractLsb' 16 8, w2.extractLsb' 24 8,
           w3.extractLsb' 0 8, w3.extractLsb' 8 8, w3.extractLsb' 16 8, w3.extractLsb' 24 8]⟩
    (((r.load (.frm 0 w0)).load (.frm 1 w1)).load (.frm 2 w2)).load (.frm 3 w3) = { r with frm := f } ∧
    (((r.load (.frmB 0 w0)).load (.frmB 1 w1)).load (.frmB 2 w2)).load (.frmB 3 w3) = { r with frmB := f } ∧
    r.load (.clk w0) = { r with clk := w0 } ∧ r.load (.rate w0) = { r with rate := w0 } ∧
    r.load (.ts w0) = { r with ts := w0 } ∧ r.load (.tmo w0) = { r with tmo := w0 } ∧
    r.load (.rxf w0) = { r with rxf := ⟨w0.getLsbD 0, w0.getLsbD 1⟩ } ∧
    r.load (.opt w0) = { r with opt := ⟨w0.getLsbD 0, w0.getLsbD 1⟩ }) ∧
  (∀ (s : State) (d : Tick) (rest : List Move), s.sched = .tick d :: rest →
    step s = .next { s with sched := rest, now := s.now + d }) ∧
  (∀ (s : State) (m : CtrlMove) (rest : List Move), s.sched = .ctrl m :: rest →
    let st := s.ctrl.status
    ∃ c : Ctrl, step s = .next { s with sched := rest, ctrl := c } ∧
      (s.sess = .running → ∀ j : Fin 3, st.tme.getLsbD j.val = true → c.status.tme.getLsbD j.val = true) ∧
      (∀ i ok, m = .txDone i ok → if st.tme.getLsbD i.val then c = s.ctrl else freesSlot i (some ok) s.ctrl c) ∧
      (∀ i flagged, m = .abortDone i flagged →
        if st.tme.getLsbD i.val = false ∧ st.abrq.getLsbD i.val = true then
          freesSlot i (if flagged then some false else none) s.ctrl c
        else c = s.ctrl) ∧
      (∀ k x, m = .rxDeliver k x → c = { s.ctrl with status := { st with
        fifo := st.fifo.set k { st.fifo[k] with entries := st.fifo[k].entries ++ [x] } } }) ∧
      (∀ k b, m = .rxOverflow k b → c = { s.ctrl with status := { st with
        fifo := st.fifo.set k { st.fifo[k] with overflow := b } } }) ∧
      (∀ b, m = .busOff b → c = { s.ctrl with status := { st with
        busOff := b, errFlag := st.errFlag || (b && !st.busOff) } }) ∧
      (∀ x, m = .lec x → c = { s.ctrl with status := { st with
        lec := x, errFlag := st.errFlag || decide (x ≠ st.lec) } }) ∧
      (m = .errorCond → c = { s.ctrl with status := { st with errFlag := true } }) ∧
      (∀ b, m = .initAck b → c = { s.ctrl with status := { st with initAck := b } }) ∧
      (∀ x, m = .redraw x → c = if s.sess = .stopped then { s.ctrl with status := x } else s.ctrl))

/-! ### The interrupt -/

/-- The line is asserted exactly while the six sources are on, CTRL is out of initialization mode, and a request-completed
flag, a FIFO that is not empty or the error flag stands. Taking the interrupt notes `now` and changes nothing else, and
happens only in a session with the line asserted; returning changes nothing else, and happens only with it not asserted;
inside an entry no thread moves, and past `acquire(mtx)` of START or STOP with the sources off interrupt context does not
(60_exceptions R291, R292 DP1, DP4, R294, R295, R309 CP3, 20_memory R72 a, b, 44_session R243, R251; log 1, log 16). -/
def Obligations.InterruptEntryAndReturn : Prop :=
  (∀ c : Ctrl, c.line = true ↔ c.regs.irqEn = .allSix ∧ c.status.initAck = false ∧
    ((∃ i : Fin 3, c.status.rqcp.getLsbD i.val = true) ∨ (∃ k : Fin 2, c.status.fifo[k].entries ≠ []) ∨
      c.status.errFlag = true)) ∧
  (∀ (s : State) (rest : List Move), s.sched = .irqEnter :: rest →
    step s = .next { s with
      sched := rest
      irq := if s.irq = none ∧ s.sess = .running ∧ s.ctrl.line = true then some s.now else s.irq }) ∧
  (∀ (s : State) (rest : List Move), s.sched = .irqLeave :: rest →
    step s = .next { s with sched := rest, irq := if s.ctrl.line = true then s.irq else none }) ∧
  (∀ (s : State) (t : Nat) (w : Word) (k : Wake) (o : OperandWrite) (rest : List Move), s.irq ≠ none →
    (s.sched = .cmd (.thread t) w :: rest ∨ s.sched = .run t k :: rest ∨ s.sched = .load (.thread t) o :: rest) →
    step s = .next { s with sched := rest }) ∧
  (∀ (s : State) (t : Nat) (w : Word) (o : OperandWrite) (rest : List Move), s.ctrl.regs.irqEn = .none →
    ((∃ p clk rate opt, p ≠ .acquire ∧ seqGet t s.seqs = some (.start p clk rate opt)) ∨
      ∃ p, p ≠ .acquire ∧ seqGet t s.seqs = some (.stop p)) →
    (s.sched = .cmd .interrupt w :: rest ∨ s.sched = .load .interrupt o :: rest) →
    step s = .next { s with sched := rest })

/-- A cause is raised exactly while the six sources are on, CTRL is out of initialization mode and its flag stands. The
dispatcher, inside an entry, turns a standing completion into one EVTXC with CTRL's transmit-OK flag and the tick
of the entry, acknowledging the flag; a waiting frame into EVRXA; an error flag into EVSTS (60_exceptions R292 DP2, DP3,
R294, R303, R309 CP3; log 16). -/
def Obligations.DispatcherServesCauses : Prop :=
  (∀ (c : Ctrl) (x : Cause), c.raised x = true ↔ c.regs.irqEn = .allSix ∧ c.status.initAck = false ∧
    (match x with
     | .txc i => c.status.rqcp.getLsbD i.val = true
     | .rx k => c.status.fifo[k].entries ≠ []
     | .status => c.status.errFlag = true)) ∧
  ∀ (s : State) (c : Cause) (rest : List Move) (ts : Tick), s.sched = .dispatch c :: rest → s.irq = some ts →
    s.ctrl.raised c = true →
    (∀ i, c = .txc i → ∃ (idx : BitVec 2) (rqcp : BitVec 3), idx.toNat = i.val ∧
      (∀ j : Fin 3, rqcp.getLsbD j.val = (s.ctrl.status.rqcp.getLsbD j.val && decide (j ≠ i))) ∧
      step s = exec (.evtxc idx (s.ctrl.status.txok.getLsbD i.val)) { s with
        sched := rest
        agent := .interrupt
        ops := { s.ops with ts := ts }
        ctrl := { s.ctrl with status := { s.ctrl.status with rqcp := rqcp } } }) ∧
    (∀ k, c = .rx k → ∃ idx : BitVec 2, idx.toNat = k.val ∧
      step s = exec (.evrxa idx) { s with sched := rest, agent := .interrupt }) ∧
    (c = .status → step s = exec .evsts { s with
        sched := rest, agent := .interrupt, ops := { s.ops with ts := ts } })

/-! ### Reset and invariants -/

/-- Power-on: Stopped, never enabled, the lock free, thread context, no interrupt entry, no sequence (70_reset R331,
10_state R48); and the invariants hold there (10_state R30, R34, R41, R45, 44_session R242). -/
def Obligations.ResetMeetsInvariants : Prop :=
  (State.reset.sess = .stopped ∧ State.reset.hwEnabled = false ∧ State.reset.mtx = none ∧ State.reset.irq = none ∧
    State.reset.seqs = [] ∧ ∃ t, State.reset.agent = .thread t) ∧
  State.reset.LockInv ∧ State.reset.SessionInv ∧ State.reset.drv.RangeInv ∧ State.reset.drv.ShapeInv ∧
    State.reset.EnableInv

/-- Every step keeps the lock and the sequences in agreement: one owner, one entry a thread (10_state R45, 20_memory
R70). -/
def Obligations.StepKeepsLock : Prop := ∀ s t : State, s.LockInv → step s = .next t → t.LockInv

/-- Every step keeps the session and the sequences in agreement: `sess` cannot change while a SEND or RECEIVE is in
progress, handlers run in a session only, and with no session there is no Driver State (20_memory R70, 10_state R26,
44_session R240, 60_exceptions R292 DP1; log 3). -/
def Obligations.StepKeepsSession : Prop :=
  ∀ s t : State, s.LockInv → s.SessionInv → step s = .next t → t.SessionInv

/-- Every step keeps `len <= 16`, `head = (tail + len) mod 16` and `peak_mb <= 2` (10_state R30, R34). -/
def Obligations.StepKeepsRanges : Prop := ∀ s t : State, s.drv.RangeInv → step s = .next t → t.drv.RangeInv

/-- Every step keeps pending slots free of error frames and of data length codes above 8 (10_state R41, 41_priority
R171). -/
def Obligations.StepKeepsShapes : Prop := ∀ s t : State, s.drv.ShapeInv → step s = .next t → t.drv.ShapeInv

/-- Every step keeps the one-time enable one time: it is commanded once at most, and `hw_enabled` is never cleared
(44_session R242, 10_state R21, 70_reset R353). -/
def Obligations.StepKeepsEnableOnce : Prop :=
  ∀ s t : State, s.EnableInv → step s = .next t → t.EnableInv ∧ (s.hwEnabled = true → t.hwEnabled = true)

/-- The machine never stops: every step answers a next state, faults of the spec included, whatever the agents do
(60_exceptions R284; log 2, log 9, log 10). -/
def Obligations.StepNeverStops : Prop := ∀ s : State, ∃ t : State, step s = .next t
end

