-- ==== Sys2Proof/Laws/State.lean ====
section
/-! SUPPORT. Every named update of the state, field by field, each true by unfolding once. -/

namespace Sys2Proof.Machine

/-! ### `setRes` -/

@[simp] theorem State.setRes_sess (r : ResultRegs) (s : State) : (s.setRes r).sess = s.sess := rfl

@[simp] theorem State.setRes_hwEnabled (r : ResultRegs) (s : State) : (s.setRes r).hwEnabled = s.hwEnabled := rfl

@[simp] theorem State.setRes_mtx (r : ResultRegs) (s : State) : (s.setRes r).mtx = s.mtx := rfl

@[simp] theorem State.setRes_ops (r : ResultRegs) (s : State) : (s.setRes r).ops = s.ops := rfl

@[simp] theorem State.setRes_resT (r : ResultRegs) (s : State) :
    (s.setRes r).resT = (match s.agent with | .thread _ => r | .interrupt => s.resT) := rfl

@[simp] theorem State.setRes_resI (r : ResultRegs) (s : State) :
    (s.setRes r).resI = (match s.agent with | .thread _ => s.resI | .interrupt => r) := rfl

@[simp] theorem State.setRes_drv (r : ResultRegs) (s : State) : (s.setRes r).drv = s.drv := rfl

@[simp] theorem State.setRes_ctrl (r : ResultRegs) (s : State) : (s.setRes r).ctrl = s.ctrl := rfl

@[simp] theorem State.setRes_now (r : ResultRegs) (s : State) : (s.setRes r).now = s.now := rfl

@[simp] theorem State.setRes_irq (r : ResultRegs) (s : State) : (s.setRes r).irq = s.irq := rfl

@[simp] theorem State.setRes_seqs (r : ResultRegs) (s : State) : (s.setRes r).seqs = s.seqs := rfl

@[simp] theorem State.setRes_agent (r : ResultRegs) (s : State) : (s.setRes r).agent = s.agent := rfl

@[simp] theorem State.setRes_wake (r : ResultRegs) (s : State) : (s.setRes r).wake = s.wake := rfl

@[simp] theorem State.setRes_freeIdx (r : ResultRegs) (s : State) : (s.setRes r).freeIdx = s.freeIdx := rfl

@[simp] theorem State.setRes_sched (r : ResultRegs) (s : State) : (s.setRes r).sched = s.sched := rfl

/-! ### `setStatus` -/

@[simp] theorem State.setStatus_sess (c : Byte) (s : State) : (s.setStatus c).sess = s.sess := rfl

@[simp] theorem State.setStatus_hwEnabled (c : Byte) (s : State) : (s.setStatus c).hwEnabled = s.hwEnabled := rfl

@[simp] theorem State.setStatus_mtx (c : Byte) (s : State) : (s.setStatus c).mtx = s.mtx := rfl

@[simp] theorem State.setStatus_ops (c : Byte) (s : State) : (s.setStatus c).ops = s.ops := rfl

@[simp] theorem State.setStatus_drv (c : Byte) (s : State) : (s.setStatus c).drv = s.drv := rfl

@[simp] theorem State.setStatus_ctrl (c : Byte) (s : State) : (s.setStatus c).ctrl = s.ctrl := rfl

@[simp] theorem State.setStatus_now (c : Byte) (s : State) : (s.setStatus c).now = s.now := rfl

@[simp] theorem State.setStatus_irq (c : Byte) (s : State) : (s.setStatus c).irq = s.irq := rfl

@[simp] theorem State.setStatus_seqs (c : Byte) (s : State) : (s.setStatus c).seqs = s.seqs := rfl

@[simp] theorem State.setStatus_agent (c : Byte) (s : State) : (s.setStatus c).agent = s.agent := rfl

@[simp] theorem State.setStatus_wake (c : Byte) (s : State) : (s.setStatus c).wake = s.wake := rfl

@[simp] theorem State.setStatus_freeIdx (c : Byte) (s : State) : (s.setStatus c).freeIdx = s.freeIdx := rfl

@[simp] theorem State.setStatus_sched (c : Byte) (s : State) : (s.setStatus c).sched = s.sched := rfl

/-! ### `putSeq` -/

@[simp] theorem State.putSeq_sess (q : Seq) (s : State) : (s.putSeq q).sess = s.sess := rfl

@[simp] theorem State.putSeq_hwEnabled (q : Seq) (s : State) : (s.putSeq q).hwEnabled = s.hwEnabled := rfl

@[simp] theorem State.putSeq_mtx (q : Seq) (s : State) : (s.putSeq q).mtx = s.mtx := rfl

@[simp] theorem State.putSeq_ops (q : Seq) (s : State) : (s.putSeq q).ops = s.ops := rfl

@[simp] theorem State.putSeq_resT (q : Seq) (s : State) : (s.putSeq q).resT = s.resT := rfl

@[simp] theorem State.putSeq_resI (q : Seq) (s : State) : (s.putSeq q).resI = s.resI := rfl

@[simp] theorem State.putSeq_drv (q : Seq) (s : State) : (s.putSeq q).drv = s.drv := rfl

@[simp] theorem State.putSeq_ctrl (q : Seq) (s : State) : (s.putSeq q).ctrl = s.ctrl := rfl

@[simp] theorem State.putSeq_now (q : Seq) (s : State) : (s.putSeq q).now = s.now := rfl

@[simp] theorem State.putSeq_irq (q : Seq) (s : State) : (s.putSeq q).irq = s.irq := rfl

@[simp] theorem State.putSeq_seqs (q : Seq) (s : State) :
    (s.putSeq q).seqs = (match s.agent with | .thread t => seqPut t q s.seqs | .interrupt => s.seqs) := rfl

@[simp] theorem State.putSeq_agent (q : Seq) (s : State) : (s.putSeq q).agent = s.agent := rfl

@[simp] theorem State.putSeq_wake (q : Seq) (s : State) : (s.putSeq q).wake = s.wake := rfl

@[simp] theorem State.putSeq_freeIdx (q : Seq) (s : State) : (s.putSeq q).freeIdx = s.freeIdx := rfl

@[simp] theorem State.putSeq_sched (q : Seq) (s : State) : (s.putSeq q).sched = s.sched := rfl

/-! ### `dropSeq` -/

@[simp] theorem State.dropSeq_sess (s : State) : (s.dropSeq).sess = s.sess := rfl

@[simp] theorem State.dropSeq_hwEnabled (s : State) : (s.dropSeq).hwEnabled = s.hwEnabled := rfl

@[simp] theorem State.dropSeq_mtx (s : State) : (s.dropSeq).mtx = s.mtx := rfl

@[simp] theorem State.dropSeq_ops (s : State) : (s.dropSeq).ops = s.ops := rfl

@[simp] theorem State.dropSeq_resT (s : State) : (s.dropSeq).resT = s.resT := rfl

@[simp] theorem State.dropSeq_resI (s : State) : (s.dropSeq).resI = s.resI := rfl

@[simp] theorem State.dropSeq_drv (s : State) : (s.dropSeq).drv = s.drv := rfl

@[simp] theorem State.dropSeq_ctrl (s : State) : (s.dropSeq).ctrl = s.ctrl := rfl

@[simp] theorem State.dropSeq_now (s : State) : (s.dropSeq).now = s.now := rfl

@[simp] theorem State.dropSeq_irq (s : State) : (s.dropSeq).irq = s.irq := rfl

@[simp] theorem State.dropSeq_seqs (s : State) :
    (s.dropSeq).seqs = (match s.agent with | .thread t => seqDrop t s.seqs | .interrupt => s.seqs) := rfl

@[simp] theorem State.dropSeq_agent (s : State) : (s.dropSeq).agent = s.agent := rfl

@[simp] theorem State.dropSeq_wake (s : State) : (s.dropSeq).wake = s.wake := rfl

@[simp] theorem State.dropSeq_freeIdx (s : State) : (s.dropSeq).freeIdx = s.freeIdx := rfl

@[simp] theorem State.dropSeq_sched (s : State) : (s.dropSeq).sched = s.sched := rfl

/-! ### `drawn` -/

@[simp] theorem State.drawn_sess (s : State) : (s.drawn).sess = s.sess := rfl

@[simp] theorem State.drawn_hwEnabled (s : State) : (s.drawn).hwEnabled = s.hwEnabled := rfl

@[simp] theorem State.drawn_mtx (s : State) : (s.drawn).mtx = s.mtx := rfl

@[simp] theorem State.drawn_ops (s : State) : (s.drawn).ops = s.ops := rfl

@[simp] theorem State.drawn_resT (s : State) : (s.drawn).resT = s.resT := rfl

@[simp] theorem State.drawn_resI (s : State) : (s.drawn).resI = s.resI := rfl

@[simp] theorem State.drawn_drv (s : State) : (s.drawn).drv = s.drv := rfl

@[simp] theorem State.drawn_ctrl (s : State) : (s.drawn).ctrl = s.ctrl := rfl

@[simp] theorem State.drawn_now (s : State) : (s.drawn).now = s.now := rfl

@[simp] theorem State.drawn_irq (s : State) : (s.drawn).irq = s.irq := rfl

@[simp] theorem State.drawn_seqs (s : State) : (s.drawn).seqs = s.seqs := rfl

@[simp] theorem State.drawn_agent (s : State) : (s.drawn).agent = s.agent := rfl

@[simp] theorem State.drawn_wake (s : State) : (s.drawn).wake = s.wake := rfl

@[simp] theorem State.drawn_freeIdx (s : State) :
    (s.drawn).freeIdx = s.freeIdx + 1 := rfl

@[simp] theorem State.drawn_sched (s : State) : (s.drawn).sched = s.sched := rfl

/-! ### `discardDriver` -/

@[simp] theorem State.discardDriver_sess (s : State) :
    (s.discardDriver).sess = .stopped := rfl

@[simp] theorem State.discardDriver_hwEnabled (s : State) : (s.discardDriver).hwEnabled = s.hwEnabled := rfl

@[simp] theorem State.discardDriver_mtx (s : State) : (s.discardDriver).mtx = s.mtx := rfl

@[simp] theorem State.discardDriver_ops (s : State) : (s.discardDriver).ops = s.ops := rfl

@[simp] theorem State.discardDriver_resT (s : State) : (s.discardDriver).resT = s.resT := rfl

@[simp] theorem State.discardDriver_resI (s : State) : (s.discardDriver).resI = s.resI := rfl

@[simp] theorem State.discardDriver_drv (s : State) :
    (s.discardDriver).drv = Driver.absent := rfl

@[simp] theorem State.discardDriver_ctrl (s : State) : (s.discardDriver).ctrl = s.ctrl := rfl

@[simp] theorem State.discardDriver_now (s : State) : (s.discardDriver).now = s.now := rfl

@[simp] theorem State.discardDriver_irq (s : State) : (s.discardDriver).irq = s.irq := rfl

@[simp] theorem State.discardDriver_seqs (s : State) : (s.discardDriver).seqs = s.seqs := rfl

@[simp] theorem State.discardDriver_agent (s : State) : (s.discardDriver).agent = s.agent := rfl

@[simp] theorem State.discardDriver_wake (s : State) : (s.discardDriver).wake = s.wake := rfl

@[simp] theorem State.discardDriver_freeIdx (s : State) : (s.discardDriver).freeIdx = s.freeIdx := rfl

@[simp] theorem State.discardDriver_sched (s : State) : (s.discardDriver).sched = s.sched := rfl

/-! ### `setQueue` -/

@[simp] theorem State.setQueue_sess (q : RxQueue) (s : State) : (s.setQueue q).sess = s.sess := rfl

@[simp] theorem State.setQueue_hwEnabled (q : RxQueue) (s : State) : (s.setQueue q).hwEnabled = s.hwEnabled := rfl

@[simp] theorem State.setQueue_mtx (q : RxQueue) (s : State) : (s.setQueue q).mtx = s.mtx := rfl

@[simp] theorem State.setQueue_ops (q : RxQueue) (s : State) : (s.setQueue q).ops = s.ops := rfl

@[simp] theorem State.setQueue_resT (q : RxQueue) (s : State) : (s.setQueue q).resT = s.resT := rfl

@[simp] theorem State.setQueue_resI (q : RxQueue) (s : State) : (s.setQueue q).resI = s.resI := rfl

@[simp] theorem State.setQueue_drv (q : RxQueue) (s : State) :
    (s.setQueue q).drv = { s.drv with rxq := q } := rfl

@[simp] theorem State.setQueue_ctrl (q : RxQueue) (s : State) : (s.setQueue q).ctrl = s.ctrl := rfl

@[simp] theorem State.setQueue_now (q : RxQueue) (s : State) : (s.setQueue q).now = s.now := rfl

@[simp] theorem State.setQueue_irq (q : RxQueue) (s : State) : (s.setQueue q).irq = s.irq := rfl

@[simp] theorem State.setQueue_seqs (q : RxQueue) (s : State) : (s.setQueue q).seqs = s.seqs := rfl

@[simp] theorem State.setQueue_agent (q : RxQueue) (s : State) : (s.setQueue q).agent = s.agent := rfl

@[simp] theorem State.setQueue_wake (q : RxQueue) (s : State) : (s.setQueue q).wake = s.wake := rfl

@[simp] theorem State.setQueue_freeIdx (q : RxQueue) (s : State) : (s.setQueue q).freeIdx = s.freeIdx := rfl

@[simp] theorem State.setQueue_sched (q : RxQueue) (s : State) : (s.setQueue q).sched = s.sched := rfl

/-! ### `command` -/

@[simp] theorem State.command_sess (f : Ctrl → Ctrl) (s : State) : (s.command f).sess = s.sess := rfl

@[simp] theorem State.command_hwEnabled (f : Ctrl → Ctrl) (s : State) : (s.command f).hwEnabled = s.hwEnabled := rfl

@[simp] theorem State.command_mtx (f : Ctrl → Ctrl) (s : State) : (s.command f).mtx = s.mtx := rfl

@[simp] theorem State.command_ops (f : Ctrl → Ctrl) (s : State) : (s.command f).ops = s.ops := rfl

@[simp] theorem State.command_resT (f : Ctrl → Ctrl) (s : State) : (s.command f).resT = s.resT := rfl

@[simp] theorem State.command_resI (f : Ctrl → Ctrl) (s : State) : (s.command f).resI = s.resI := rfl

@[simp] theorem State.command_drv (f : Ctrl → Ctrl) (s : State) : (s.command f).drv = s.drv := rfl

@[simp] theorem State.command_ctrl (f : Ctrl → Ctrl) (s : State) :
    (s.command f).ctrl = f s.ctrl := rfl

@[simp] theorem State.command_now (f : Ctrl → Ctrl) (s : State) : (s.command f).now = s.now := rfl

@[simp] theorem State.command_irq (f : Ctrl → Ctrl) (s : State) : (s.command f).irq = s.irq := rfl

@[simp] theorem State.command_seqs (f : Ctrl → Ctrl) (s : State) : (s.command f).seqs = s.seqs := rfl

@[simp] theorem State.command_agent (f : Ctrl → Ctrl) (s : State) : (s.command f).agent = s.agent := rfl

@[simp] theorem State.command_wake (f : Ctrl → Ctrl) (s : State) : (s.command f).wake = s.wake := rfl

@[simp] theorem State.command_freeIdx (f : Ctrl → Ctrl) (s : State) : (s.command f).freeIdx = s.freeIdx := rfl

@[simp] theorem State.command_sched (f : Ctrl → Ctrl) (s : State) : (s.command f).sched = s.sched := rfl

/-! ### `clearTxEv` -/

@[simp] theorem State.clearTxEv_sess (s : State) : (s.clearTxEv).sess = s.sess := rfl

@[simp] theorem State.clearTxEv_hwEnabled (s : State) : (s.clearTxEv).hwEnabled = s.hwEnabled := rfl

@[simp] theorem State.clearTxEv_mtx (s : State) : (s.clearTxEv).mtx = s.mtx := rfl

@[simp] theorem State.clearTxEv_ops (s : State) : (s.clearTxEv).ops = s.ops := rfl

@[simp] theorem State.clearTxEv_resT (s : State) : (s.clearTxEv).resT = s.resT := rfl

@[simp] theorem State.clearTxEv_resI (s : State) : (s.clearTxEv).resI = s.resI := rfl

@[simp] theorem State.clearTxEv_drv (s : State) :
    (s.clearTxEv).drv = { s.drv with txEv := false } := rfl

@[simp] theorem State.clearTxEv_ctrl (s : State) : (s.clearTxEv).ctrl = s.ctrl := rfl

@[simp] theorem State.clearTxEv_now (s : State) : (s.clearTxEv).now = s.now := rfl

@[simp] theorem State.clearTxEv_irq (s : State) : (s.clearTxEv).irq = s.irq := rfl

@[simp] theorem State.clearTxEv_seqs (s : State) : (s.clearTxEv).seqs = s.seqs := rfl

@[simp] theorem State.clearTxEv_agent (s : State) : (s.clearTxEv).agent = s.agent := rfl

@[simp] theorem State.clearTxEv_wake (s : State) : (s.clearTxEv).wake = s.wake := rfl

@[simp] theorem State.clearTxEv_freeIdx (s : State) : (s.clearTxEv).freeIdx = s.freeIdx := rfl

@[simp] theorem State.clearTxEv_sched (s : State) : (s.clearTxEv).sched = s.sched := rfl

/-! ### `clearRxEv` -/

@[simp] theorem State.clearRxEv_sess (s : State) : (s.clearRxEv).sess = s.sess := rfl

@[simp] theorem State.clearRxEv_hwEnabled (s : State) : (s.clearRxEv).hwEnabled = s.hwEnabled := rfl

@[simp] theorem State.clearRxEv_mtx (s : State) : (s.clearRxEv).mtx = s.mtx := rfl

@[simp] theorem State.clearRxEv_ops (s : State) : (s.clearRxEv).ops = s.ops := rfl

@[simp] theorem State.clearRxEv_resT (s : State) : (s.clearRxEv).resT = s.resT := rfl

@[simp] theorem State.clearRxEv_resI (s : State) : (s.clearRxEv).resI = s.resI := rfl

@[simp] theorem State.clearRxEv_drv (s : State) :
    (s.clearRxEv).drv = { s.drv with rxEv := false } := rfl

@[simp] theorem State.clearRxEv_ctrl (s : State) : (s.clearRxEv).ctrl = s.ctrl := rfl

@[simp] theorem State.clearRxEv_now (s : State) : (s.clearRxEv).now = s.now := rfl

@[simp] theorem State.clearRxEv_irq (s : State) : (s.clearRxEv).irq = s.irq := rfl

@[simp] theorem State.clearRxEv_seqs (s : State) : (s.clearRxEv).seqs = s.seqs := rfl

@[simp] theorem State.clearRxEv_agent (s : State) : (s.clearRxEv).agent = s.agent := rfl

@[simp] theorem State.clearRxEv_wake (s : State) : (s.clearRxEv).wake = s.wake := rfl

@[simp] theorem State.clearRxEv_freeIdx (s : State) : (s.clearRxEv).freeIdx = s.freeIdx := rfl

@[simp] theorem State.clearRxEv_sched (s : State) : (s.clearRxEv).sched = s.sched := rfl

/-! ### `returnWith` -/

@[simp] theorem State.returnWith_sess (c : Byte) (s : State) : (s.returnWith c).sess = s.sess := rfl

@[simp] theorem State.returnWith_hwEnabled (c : Byte) (s : State) : (s.returnWith c).hwEnabled = s.hwEnabled := rfl

@[simp] theorem State.returnWith_mtx (c : Byte) (s : State) :
    (s.returnWith c).mtx = none := rfl

@[simp] theorem State.returnWith_ops (c : Byte) (s : State) : (s.returnWith c).ops = s.ops := rfl

@[simp] theorem State.returnWith_drv (c : Byte) (s : State) : (s.returnWith c).drv = s.drv := rfl

@[simp] theorem State.returnWith_ctrl (c : Byte) (s : State) : (s.returnWith c).ctrl = s.ctrl := rfl

@[simp] theorem State.returnWith_now (c : Byte) (s : State) : (s.returnWith c).now = s.now := rfl

@[simp] theorem State.returnWith_irq (c : Byte) (s : State) : (s.returnWith c).irq = s.irq := rfl

@[simp] theorem State.returnWith_seqs (c : Byte) (s : State) :
    (s.returnWith c).seqs = (match s.agent with | .thread t => seqDrop t s.seqs | .interrupt => s.seqs) := rfl

@[simp] theorem State.returnWith_agent (c : Byte) (s : State) : (s.returnWith c).agent = s.agent := rfl

@[simp] theorem State.returnWith_wake (c : Byte) (s : State) : (s.returnWith c).wake = s.wake := rfl

@[simp] theorem State.returnWith_freeIdx (c : Byte) (s : State) : (s.returnWith c).freeIdx = s.freeIdx := rfl

@[simp] theorem State.returnWith_sched (c : Byte) (s : State) : (s.returnWith c).sched = s.sched := rfl

/-! ### The issuing context's result registers -/

@[simp] theorem State.res_setRes (r : ResultRegs) (s : State) : (s.setRes r).res = r := by
  cases h : s.agent <;> simp [State.res, h]

@[simp] theorem State.res_setStatus (c : Byte) (s : State) : (s.setStatus c).res = { s.res with status := c } :=
  State.res_setRes _ s

theorem State.res_thread {s : State} {t : Nat} (h : s.agent = .thread t) : s.res = s.resT := by simp [State.res, h]

theorem State.res_interrupt {s : State} (h : s.agent = .interrupt) : s.res = s.resI := by simp [State.res, h]

theorem State.setRes_resI_of_thread {s : State} {t : Nat} (r : ResultRegs) (h : s.agent = .thread t) :
    (s.setRes r).resI = s.resI := by simp [h]

theorem State.setRes_resT_of_interrupt {s : State} (r : ResultRegs) (h : s.agent = .interrupt) :
    (s.setRes r).resT = s.resT := by simp [h]

theorem State.setStatus_eq (c : Byte) (s : State) : s.setStatus c = s.setRes { s.res with status := c } := rfl

theorem State.returnWith_res (c : Byte) (s : State) : (s.returnWith c).res = { s.res with status := c } :=
  State.res_setStatus c _

end Sys2Proof.Machine
end

