-- ==== Sys2Proof/Laws/Ops.lean ====
section
/-! SUPPORT. One lemma for each shared operation, saying everything it can do. -/

namespace Sys2Proof.Machine

open Host (Outcome)

/-! ### Counters, ring indices, port bits -/

theorem ringInc_toNat (i : BitVec 4) : (ringInc i).toNat = (i.toNat + 1) % 16 := by
  revert i; decide

theorem ringInc_eq (i : BitVec 4) : ringInc i = i + 1 := by
  revert i; decide

theorem satInc_toNat (v : Word) : (satInc v).toNat = min (v.toNat + 1) (2 ^ 32 - 1) := by
  unfold satInc
  split
  · next h => subst h; decide
  · next h =>
    have : v.toNat ≠ 2 ^ 32 - 1 := fun e => h (BitVec.eq_of_toNat_eq (by simpa using e))
    have := v.isLt
    rw [BitVec.toNat_add]
    simp
    omega

theorem countUp_of_ne {free v : Word} (h : v ≠ BitVec.allOnes 32) : countUp free v = v + 1 := if_neg h

theorem portBit_setPortBit (v : BitVec 3) (i j : Fin 3) (b : Bool) :
    portBit (setPortBit v i b) j = if j = i then b else portBit v j := by
  revert v i j b; decide

/-! ### Contexts and the checks -/

@[simp] theorem admits_any (a : Agent) : admits .any a = true := rfl

@[simp] theorem admits_thread_iff (a : Agent) : admits .thread a = true ↔ a ≠ .interrupt := by
  cases a <;> simp [admits]

@[simp] theorem admits_interrupt_iff (a : Agent) : admits .interrupt a = true ↔ a = .interrupt := by
  cases a <;> simp [admits]

/-- Everything the checks can do. -/
theorem guardOp_cases (i : Instr) (s : State) (k : Outcome State Fault Refusal) :
    (admits (opContext i) s.agent = false ∧ guardOp i s k = raiseFault .context s) ∨
    (admits (opContext i) s.agent = true ∧ checksSession i = true ∧ s.sess = .stopped ∧
      guardOp i s k = raiseFault .notRunning s) ∨
    (admits (opContext i) s.agent = true ∧ (checksSession i = true → s.sess = .running) ∧ guardOp i s k = k) := by
  unfold guardOp
  cases ha : admits (opContext i) s.agent
  · simp
  · by_cases hc : checksSession i = true ∧ s.sess = .stopped
    · simp [hc]
    · right; right
      refine ⟨rfl, fun h => ?_, by simp [hc]⟩
      cases hs : s.sess
      · exact absurd ⟨h, hs⟩ hc
      · rfl

/-- The checks pass: the operation's own rule runs. -/
theorem guardOp_pass {i : Instr} {s : State} (k : Outcome State Fault Refusal)
    (ha : admits (opContext i) s.agent = true) (hs : checksSession i = true → s.sess = .running) :
    guardOp i s k = k := by
  unfold guardOp
  rw [if_neg (by simp [ha]), if_neg]
  rintro ⟨h, h'⟩
  rw [hs h] at h'
  cases h'

@[simp] theorem raiseFault_eq (f : OpFault) (s : State) : raiseFault f s = .next (s.setStatus f.code) := rfl

@[simp] theorem finish_eq (c : ResultCode) (s : State) : finish c s = .next (s.setStatus c.code) := rfl

@[simp] theorem finishFlag_eq (b : Bool) (s : State) :
    finishFlag b s = .next (s.setRes { s.res with status := ResultCode.ok.code, flag := b }) := rfl

@[simp] theorem finishVal_eq (v : Word) (s : State) :
    finishVal v s = .next (s.setRes { s.res with status := ResultCode.ok.code, val := v }) := rfl

/-! ### Sequences in progress -/

@[simp] theorem seqGet_seqPut_self (t : Nat) (q : Seq) (l : List (Nat × Seq)) : seqGet t (seqPut t q l) = some q := by
  induction l with
  | nil => simp [seqPut, seqGet]
  | cons e l ih =>
    obtain ⟨u, r⟩ := e
    unfold seqPut
    split
    · simp [seqGet]
    · split
      · simp [seqGet]
      · next h => simp [seqGet, h, ih]

theorem seqGet_seqPut_of_ne {t u : Nat} (h : u ≠ t) (q : Seq) (l : List (Nat × Seq)) :
    seqGet u (seqPut t q l) = seqGet u l := by
  induction l with
  | nil => simp [seqPut, seqGet, h.symm]
  | cons e l ih =>
    obtain ⟨v, r⟩ := e
    unfold seqPut
    split
    · simp [seqGet, h.symm]
    · split
      · next hv => subst hv; simp [seqGet, h.symm]
      · simp [seqGet, ih]

@[simp] theorem seqGet_seqDrop_self (t : Nat) (l : List (Nat × Seq)) : seqGet t (seqDrop t l) = none := by
  induction l with
  | nil => rfl
  | cons e l ih =>
    obtain ⟨u, r⟩ := e
    unfold seqDrop
    split
    · exact ih
    · next h => simp [seqGet, h, ih]

theorem seqGet_seqDrop_of_ne {t u : Nat} (h : u ≠ t) (l : List (Nat × Seq)) :
    seqGet u (seqDrop t l) = seqGet u l := by
  induction l with
  | nil => rfl
  | cons e l ih =>
    obtain ⟨v, r⟩ := e
    unfold seqDrop
    split
    · next hv => subst hv; simp [seqGet, h.symm, ih]
    · simp [seqGet, ih]

theorem seqGet_mem {t : Nat} {q : Seq} {l : List (Nat × Seq)} (h : seqGet t l = some q) : (t, q) ∈ l := by
  induction l with
  | nil => simp [seqGet] at h
  | cons e l ih =>
    obtain ⟨u, r⟩ := e
    unfold seqGet at h
    split at h
    · next hu => cases h; subst hu; exact .head _
    · exact .tail _ (ih h)

theorem mem_seqPut {t : Nat} {q : Seq} {l : List (Nat × Seq)} {e : Nat × Seq} (h : e ∈ seqPut t q l) :
    e = (t, q) ∨ e ∈ l := by
  induction l with
  | nil => simpa [seqPut] using h
  | cons f l ih =>
    obtain ⟨u, r⟩ := f
    unfold seqPut at h
    split at h
    · simpa using h
    · split at h
      · rcases List.mem_cons.mp h with h | h
        · exact .inl h
        · exact .inr (.tail _ h)
      · rcases List.mem_cons.mp h with h | h
        · exact .inr (h ▸ .head _)
        · rcases ih h with h | h
          · exact .inl h
          · exact .inr (.tail _ h)

theorem mem_seqDrop {t : Nat} {l : List (Nat × Seq)} {e : Nat × Seq} : e ∈ seqDrop t l ↔ e ∈ l ∧ e.1 ≠ t := by
  induction l with
  | nil => simp [seqDrop]
  | cons f l ih =>
    obtain ⟨u, r⟩ := f
    unfold seqDrop
    split
    · next hu =>
      subst hu
      rw [ih]
      constructor
      · exact fun h => ⟨.tail _ h.1, h.2⟩
      · rintro ⟨h, hne⟩
        rcases List.mem_cons.mp h with rfl | h
        · exact absurd rfl hne
        · exact ⟨h, hne⟩
    · next hu =>
      rw [List.mem_cons, ih, List.mem_cons]
      constructor
      · rintro (rfl | h)
        · exact ⟨.inl rfl, hu⟩
        · exact ⟨.inr h.1, h.2⟩
      · rintro ⟨rfl | h, hne⟩
        · exact .inl rfl
        · exact .inr ⟨h, hne⟩

theorem threadsRise_cons {t : Nat} {q : Seq} {l : List (Nat × Seq)} :
    threadsRise ((t, q) :: l) = true ↔ (∀ e ∈ l, t < e.1) ∧ threadsRise l = true := by
  simp [threadsRise]

/-- In the canonical form a thread's entry is the one `seqGet` finds. -/
theorem seqGet_of_mem {l : List (Nat × Seq)} (hl : threadsRise l = true) {e : Nat × Seq} (h : e ∈ l) :
    seqGet e.1 l = some e.2 := by
  induction l with
  | nil => cases h
  | cons f l ih =>
    obtain ⟨u, r⟩ := f
    obtain ⟨hlt, hl⟩ := threadsRise_cons.mp hl
    rcases List.mem_cons.mp h with rfl | h
    · simp [seqGet]
    · have := hlt e h
      simp [seqGet, Nat.ne_of_lt this, ih hl h]

theorem threadsRise_seqDrop (t : Nat) {l : List (Nat × Seq)} (hl : threadsRise l = true) :
    threadsRise (seqDrop t l) = true := by
  induction l with
  | nil => exact hl
  | cons f l ih =>
    obtain ⟨u, r⟩ := f
    obtain ⟨hlt, hl⟩ := threadsRise_cons.mp hl
    unfold seqDrop
    split
    · exact ih hl
    · exact threadsRise_cons.mpr ⟨fun e he => hlt e (mem_seqDrop.mp he).1, ih hl⟩

theorem threadsRise_seqPut (t : Nat) (q : Seq) {l : List (Nat × Seq)} (hl : threadsRise l = true) :
    threadsRise (seqPut t q l) = true := by
  induction l with
  | nil => rfl
  | cons f l ih =>
    obtain ⟨u, r⟩ := f
    obtain ⟨hlt, hl'⟩ := threadsRise_cons.mp hl
    unfold seqPut
    split
    · next h =>
      refine threadsRise_cons.mpr ⟨fun e he => ?_, hl⟩
      rcases List.mem_cons.mp he with rfl | he
      · exact h
      · exact Nat.lt_trans h (hlt e he)
    · split
      · next h => subst h; exact threadsRise_cons.mpr ⟨hlt, hl'⟩
      · refine threadsRise_cons.mpr ⟨fun e he => ?_, ih hl'⟩
        rcases mem_seqPut he with rfl | he
        · show u < t
          omega
        · exact hlt e he

/-- A fresh thread has no sequence. -/
theorem seqGet_freshThread (l : List (Nat × Seq)) : seqGet (freshThread l) l = none := by
  have key : ∀ (l : List (Nat × Seq)) (t : Nat), freshThread l ≤ t → seqGet t l = none := by
    intro l
    induction l with
    | nil => intros; rfl
    | cons e l ih =>
      obtain ⟨u, q⟩ := e
      intro t h
      have h' : u + 1 ≤ t ∧ freshThread l ≤ t := by simpa [freshThread, Nat.max_le] using h
      have hne : u ≠ t := by omega
      simp [seqGet, hne, ih t h'.2]
  exact key l _ (Nat.le_refl _)

theorem State.curSeq_thread {s : State} {t : Nat} (h : s.agent = .thread t) : s.curSeq = seqGet t s.seqs := by
  simp [State.curSeq, h]

theorem State.curSeq_interrupt {s : State} (h : s.agent = .interrupt) : s.curSeq = none := by simp [State.curSeq, h]

theorem State.thread_eq {s : State} {t : Nat} (h : s.agent = .thread t) : s.thread = t := by simp [State.thread, h]

theorem State.putSeq_eq {s : State} {t : Nat} (h : s.agent = .thread t) (q : Seq) :
    s.putSeq q = { s with seqs := seqPut t q s.seqs } := by simp [State.putSeq, h]

theorem State.dropSeq_eq {s : State} {t : Nat} (h : s.agent = .thread t) :
    s.dropSeq = { s with seqs := seqDrop t s.seqs } := by simp [State.dropSeq, h]

/-- Everything `acquire` can do. -/
theorem State.acquire_eq {s : State} {t : Nat} (h : s.agent = .thread t) (q : Seq) :
    s.acquire q = if s.mtx = none then { s with mtx := some t, seqs := seqPut t q s.seqs } else s := by
  unfold State.acquire
  split
  · simp [State.putSeq, State.thread, h]
  · rfl

theorem State.setRes_thread {s : State} {t : Nat} (h : s.agent = .thread t) (r : ResultRegs) :
    s.setRes r = { s with resT := r } := by simp [State.setRes, h]

theorem State.setRes_interrupt {s : State} (h : s.agent = .interrupt) (r : ResultRegs) :
    s.setRes r = { s with resI := r } := by simp [State.setRes, h]

theorem State.setStatus_thread {s : State} {t : Nat} (h : s.agent = .thread t) (c : Byte) :
    s.setStatus c = { s with resT := { s.resT with status := c } } := by
  simp [State.setStatus, State.setRes, State.res, h]

theorem State.setStatus_interrupt {s : State} (h : s.agent = .interrupt) (c : Byte) :
    s.setStatus c = { s with resI := { s.resI with status := c } } := by
  simp [State.setStatus, State.setRes, State.res, h]

/-- Everything the return of a sequence does. -/
theorem State.returnWith_eq {s : State} {t : Nat} (h : s.agent = .thread t) (c : Byte) :
    s.returnWith c =
      { s with mtx := none, seqs := seqDrop t s.seqs, resT := { s.resT with status := c } } := by
  simp [State.returnWith, State.setStatus, State.setRes, State.res, State.dropSeq, h]

/-! ### Interrupt context between the steps of START and STOP -/

/-- With a source on, interrupt context is never silenced. -/
theorem State.silenced_of_allSix {s : State} (h : s.ctrl.regs.irqEn = .allSix) : s.silenced = false := by
  simp [State.silenced, h]

/-- With the sources off, a START or STOP past `acquire(mtx)` silences interrupt context (20_memory R72 a). -/
theorem State.silenced_of_seqGet {s : State} {t : Nat} {q : Seq} (h : s.ctrl.regs.irqEn = .none)
    (hq : seqGet t s.seqs = some q) (hc : q.changesSession = true) : s.silenced = true := by
  simp only [State.silenced, h, decide_true, Bool.true_and, List.any_eq_true]
  exact ⟨(t, q), seqGet_mem hq, hc⟩

/-- Everything `heard` can do: put the six sources on, or nothing. -/
theorem State.heard_eq (s : State) :
    s.heard = { s with
      ctrl := if s.silenced = true then { s.ctrl with regs := { s.ctrl.regs with irqEn := .allSix } } else s.ctrl } := by
  unfold State.heard
  split <;> rfl

@[simp] theorem State.heard_silenced (s : State) : s.heard.silenced = false := by
  unfold State.heard
  split
  · exact State.silenced_of_allSix rfl
  · next h => simpa using h

/-! ### STOP's clearing of causes -/

@[simp] theorem Ctrl.clearPendingIrq_regs (c : Ctrl) : c.clearPendingIrq.regs = c.regs := rfl
@[simp] theorem Ctrl.clearPendingIrq_rqcp (c : Ctrl) : c.clearPendingIrq.status.rqcp = 0 := rfl
@[simp] theorem Ctrl.clearPendingIrq_errFlag (c : Ctrl) : c.clearPendingIrq.status.errFlag = false := rfl

/-- After the command both FIFOs are empty, their overflow flags as they were (10_state R46). -/
theorem Ctrl.clearPendingIrq_fifo (c : Ctrl) (k : Fin 2) :
    c.clearPendingIrq.status.fifo[k] = { c.status.fifo[k] with entries := [] } := by
  match k with
  | 0 => rfl
  | 1 => rfl

/-! ### Runs -/

@[simp] theorem State.runReaches_zero (p : State → Bool) (s : State) :
    s.runReaches p 0 = (s.noFaultRecorded && p s) := rfl

/-- A run goes on from its first step, if no fault is recorded before it. -/
theorem State.runReaches_succ {p : State → Bool} {n : Nat} {s t : State} (h : step s = .next t) :
    s.runReaches p (n + 1) = (s.noFaultRecorded && t.runReaches p n) := by
  simp [State.runReaches, h]

/-! ### Driver State -/

section push
variable (free : Word) (e : ReceivedFrame) (d : Driver)

@[simp] theorem Driver.push_rxq : (d.push free e).rxq = d.rxq.push e := by unfold Driver.push; split <;> rfl
@[simp] theorem Driver.push_rxEv : (d.push free e).rxEv = true := by unfold Driver.push; split <;> rfl
@[simp] theorem Driver.push_slots : (d.push free e).slots = d.slots := by unfold Driver.push; split <;> rfl
@[simp] theorem Driver.push_peakMb : (d.push free e).peakMb = d.peakMb := by unfold Driver.push; split <;> rfl
@[simp] theorem Driver.push_errCnt : (d.push free e).errCnt = d.errCnt := by unfold Driver.push; split <;> rfl
@[simp] theorem Driver.push_txCnt : (d.push free e).txCnt = d.txCnt := by unfold Driver.push; split <;> rfl
@[simp] theorem Driver.push_lastErr : (d.push free e).lastErr = d.lastErr := by unfold Driver.push; split <;> rfl
@[simp] theorem Driver.push_loopback : (d.push free e).loopback = d.loopback := by unfold Driver.push; split <;> rfl
@[simp] theorem Driver.push_txEv : (d.push free e).txEv = d.txEv := by unfold Driver.push; split <;> rfl

/-- A loopback frame is pushed and wakes the receiver, and is not counted (43_event_handlers R225). -/
theorem Driver.push_loopbackFrame (h : e.loopback = true) :
    d.push free e = { d with rxq := d.rxq.push e, rxEv := true } := by simp [Driver.push, h]

/-- Real traffic is counted (43_event_handlers R225). -/
theorem Driver.push_real (h : e.loopback = false) (h' : e.failed = false) :
    d.push free e =
      { d with rxq := d.rxq.push e, rxEv := true, rxCnt := countUp free d.rxCnt, activity := true } := by
  simp [Driver.push, h, h']

end push

/-- Everything the loopback report of a slot does: push the slot's frame, or nothing. -/
theorem Driver.report_eq (free : Word) (i : Fin 3) (failed : Bool) (ts : Tick) (d : Driver) :
    d.report free i failed ts =
      if d.loopback = true ∧ d.slots[i].pending = true then
        { d with rxq := d.rxq.push ⟨d.slots[i].frame, true, failed, ts⟩, rxEv := true }
      else d := by
  unfold Driver.report
  split
  · exact Driver.push_loopbackFrame _ _ _ rfl
  · rfl

/-- Everything `loadMailbox` can do. -/
theorem loadMailbox_cases (f : Frame) (s : State) :
    (f.unsupported = true ∧ loadMailbox f s = (.unsupportedFrame, s)) ∨
    (f.unsupported = false ∧ firstFree s.ctrl.status.tme = none ∧ loadMailbox f s = (.noFreeSlot, s)) ∨
    (f.unsupported = false ∧ ∃ i, firstFree s.ctrl.status.tme = some i ∧ loadMailbox f s = (.ok, loadSlot i f s)) := by
  unfold loadMailbox
  cases hf : f.unsupported
  · cases hi : firstFree s.ctrl.status.tme <;> simp
  · simp

/-- The slot chosen is the lowest one CTRL reports free (41_priority R173). -/
theorem firstFree_eq_some {tme : BitVec 3} {i : Fin 3} :
    firstFree tme = some i ↔ portBit tme i = true ∧ ∀ j < i, portBit tme j = false := by
  revert tme i; decide

theorem firstFree_eq_none {tme : BitVec 3} : firstFree tme = none ↔ tme = 0b000#3 := by
  revert tme; decide

/-! ### TCALC's search -/

/-- What the search finds is the first dividing `sum` downward (40_timing R134). -/
theorem searchSum_some {pbs top sum : Nat} (h : searchSum pbs top = some sum) : LargestSum pbs top sum := by
  induction top with
  | zero => simp [searchSum] at h
  | succ n ih =>
    unfold searchSum at h
    split at h
    · cases h
    · next h3 =>
      have h3' : 3 ≤ n + 1 := by simpa [Config.minSum] using h3
      split at h
      · next hd =>
        cases h
        exact ⟨h3', Nat.le_refl _, Nat.dvd_of_mod_eq_zero hd, fun m hm hlt => by omega⟩
      · next hd =>
        obtain ⟨a, b, c, d⟩ := ih h
        refine ⟨a, by omega, c, fun m hm hlt hdv => ?_⟩
        rcases Nat.lt_or_ge n m with hnm | hnm
        · have : m = n + 1 := by omega
          subst this
          exact hd (Nat.mod_eq_zero_of_dvd hdv)
        · exact d m hnm hlt hdv

/-- If the search finds nothing, no `sum` from 3 up to the start divides (40_timing R135). -/
theorem searchSum_none {pbs top : Nat} (h : searchSum pbs top = none) : ∀ n ≤ top, 3 ≤ n → ¬(1 + n) ∣ pbs := by
  induction top with
  | zero => intro n hn h3; omega
  | succ k ih =>
    intro n hn h3 hdv
    unfold searchSum at h
    split at h
    · next hk => simp [Config.minSum] at hk; omega
    · split at h
      · cases h
      · next hd =>
        rcases Nat.lt_or_ge k n with hkn | hkn
        · have : n = k + 1 := by omega
          subst this
          exact hd (Nat.mod_eq_zero_of_dvd hdv)
        · exact ih h n hkn h3 hdv

/-! ### The waits -/

/-- A wait's move ends as R228 enables it, or not at all. -/
theorem waitEnd_eq (latch : Bool) (now ti budget : Tick) (k : Wake) :
    waitEnd latch now ti budget k =
      match k with
      | .signalled => if latch = true then .signalled else .blocked
      | .expired => if budget.toNat ≤ (now - ti).toNat then .expired else .blocked
      | .spurious => .spurious := by
  cases k <;> simp [waitEnd, BitVec.le_def]

end Sys2Proof.Machine
end

