-- ==== Sys2Proof/Laws/PerInstr.lean ====
section
/-! SUPPORT. A statement for all instructions, one lemma a constructor: the fields of an encoded instruction are its own
(30_encoding R98, R100). -/

namespace Sys2Proof.Laws.EncodeFields

/-- The command word of `i` holds its code, its index and success fields, and zero reserved bits. -/
def Statement (i : Instr) : Prop :=
  cmdOp (encode i) = opCode i ∧ cmdIdx (encode i) = idxField i ∧ cmdOk (encode i) = okField i ∧
    cmdReserved (encode i) = 0#21

/-- The fields of a command word put together from its fields. -/
theorem fields_cmdWord (op : Byte) (idx : BitVec 2) (ok : Bool) :
    cmdOp (cmdWord op idx ok) = op ∧ cmdIdx (cmdWord op idx ok) = idx ∧ cmdOk (cmdWord op idx ok) = ok ∧
      cmdReserved (cmdWord op idx ok) = 0#21 := by
  revert op idx ok; decide

theorem tcalc : Statement .tcalc := fields_cmdWord _ _ _
theorem pricmp : Statement .pricmp := fields_cmdWord _ _ _
theorem canacc : Statement .canacc := fields_cmdWord _ _ _
theorem mbload : Statement .mbload := fields_cmdWord _ _ _
theorem qpush : Statement .qpush := fields_cmdWord _ _ _
theorem qpop : Statement .qpop := fields_cmdWord _ _ _
theorem qreset : Statement .qreset := fields_cmdWord _ _ _
theorem qlen : Statement .qlen := fields_cmdWord _ _ _
theorem evtxc (idx : BitVec 2) (ok : Bool) : Statement (.evtxc idx ok) := fields_cmdWord _ _ _
theorem evrxa (idx : BitVec 2) : Statement (.evrxa idx) := fields_cmdWord _ _ _
theorem evsts : Statement .evsts := fields_cmdWord _ _ _
theorem start : Statement .start := fields_cmdWord _ _ _
theorem stop : Statement .stop := fields_cmdWord _ _ _
theorem send : Statement .send := fields_cmdWord _ _ _
theorem receive : Statement .receive := fields_cmdWord _ _ _
theorem waittx : Statement .waittx := fields_cmdWord _ _ _
theorem waitrx : Statement .waitrx := fields_cmdWord _ _ _
theorem rderr : Statement .rderr := fields_cmdWord _ _ _
theorem rdovf : Statement .rdovf := fields_cmdWord _ _ _
theorem rdtxc : Statement .rdtxc := fields_cmdWord _ _ _
theorem rdrxc : Statement .rdrxc := fields_cmdWord _ _ _
theorem rdlec : Statement .rdlec := fields_cmdWord _ _ _
theorem rdpeak : Statement .rdpeak := fields_cmdWord _ _ _
theorem rdact : Statement .rdact := fields_cmdWord _ _ _

end Sys2Proof.Laws.EncodeFields
end

