-- ==== Sys2Proof/Tests/Slice0.lean ====
section
/-! SUPPORT. Small tests, each expected result taken from the spec (the encodings of 30_encoding R98 and R100, the vectors
of 95_test_vectors by their names), and for every obligation with hypotheses a witness that they can be met. -/

namespace Sys2Proof.Tests

open Sys2Proof.Machine

/-! ### Helpers -/

/-- The operation answered a next state with the property. -/
def after (o : Host.Outcome State Fault Refusal) (p : State → Bool) : Bool :=
  match o with
  | .next s => p s
  | .fault _ => false
  | .refused _ => false

/-- Eight bytes, the first two given. -/
def bytes (a b : Byte) : Vector Byte 8 := #v[a, b, 0, 0, 0, 0, 0, 0]

/-- A frame without payload. -/
def frame (id : Word) : Frame := ⟨id, 0, bytes 0 0⟩

/-- A running session in thread context, all zero (95_test_vectors section 4: a fresh session). -/
def runT : State := { State.reset with sess := .running }

/-- A running session in interrupt context. -/
def runI : State := { runT with agent := .interrupt }

/-- `A_FRM` loaded. -/
def withFrm (f : Frame) (s : State) : State := { s with ops := { s.ops with frm := f } }

/-- `CTRL.tme` as given, the given frames pending in slots 0 and 1. -/
def slots (tme : BitVec 3) (f0 f1 : Option Frame) (s : State) : State :=
  { s with
    ctrl := { s.ctrl with status := { s.ctrl.status with tme := tme } }
    drv := { s.drv with slots := #v[⟨f0.isSome, f0.getD zeroFrame⟩, ⟨f1.isSome, f1.getD zeroFrame⟩,
      ⟨false, zeroFrame⟩] } }

/-- The received frame of 95_test_vectors section 4 numbered `n`. -/
def entry (n : Nat) : ReceivedFrame :=
  ⟨⟨BitVec.ofNat 32 (0x100 + n), 1, bytes (BitVec.ofNat 8 n) 0⟩, false, false, BitVec.ofNat 32 (1000 + n)⟩

/-- A queue holding the first `n` of them. -/
def queued : Nat → RxQueue
  | 0 => Driver.absent.rxq
  | n + 1 => (queued n).push (entry n)

/-- The full queue of the worked example of R191: `head = tail = 5`, `len = 16`, `ovf = 0`. -/
def full : RxQueue := ⟨Vector.ofFn fun i => entry i.val, 5, 5, 16, 0⟩

/-- The queue replaced. -/
def withQueue (q : RxQueue) (s : State) : State := { s with drv := { s.drv with rxq := q } }

/-- The driver of vector H1: loopback, slot 0 pending with F. -/
def loopF : Driver :=
  { Driver.absent with
    loopback := true
    slots := #v[⟨true, ⟨0x123, 2, bytes 1 2⟩⟩, ⟨false, zeroFrame⟩, ⟨false, zeroFrame⟩] }

/-- A state of CTRL with FIFO `k` presenting `m`. -/
def presenting (k : Fin 2) (m : RxMsg) (overflow : Bool) (s : State) : State :=
  { s with ctrl := { s.ctrl with status := { s.ctrl.status with fifo := s.ctrl.status.fifo.set k ⟨[m], overflow⟩ } } }

/-- The head record of vector H6, with the given data length code. -/
def msg (dlc : BitVec 4) : RxMsg := ⟨false, false, 0x321, dlc, 0xAA, 0⟩

/-- Bus-off and last-error code as CTRL presents them, the error flag standing. -/
def errors (off : Bool) (lec : BitVec 4) (s : State) : State :=
  { s with ctrl := { s.ctrl with status := { s.ctrl.status with busOff := off, lec := lec, errFlag := true } } }

/-- Thread 0 stands at this place of a sequence and holds the lock. -/
def inSeq (q : Seq) (s : State) : State := { s with seqs := [(0, q)], mtx := some 0 }

/-! ### Well-formedness: an ill-formed term for each check -/

theorem test_wf_evtxc_slot3 : (Instr.evtxc 3 true).wellFormed = false ∧ (Instr.evtxc 2 true).wellFormed = true := by
  decide

theorem test_wf_evrxa_fifo2 : (Instr.evrxa 2).wellFormed = false ∧ (Instr.evrxa 1).wellFormed = true := by decide

theorem test_wf_frame_dlc9 : (Frame.mk 0x123 9 (bytes 0 0)).wellFormed = false ∧ (frame 0x123).wellFormed = true := by
  decide

theorem test_wf_frame_std_high : (frame 0x923).wellFormed = false ∧ (frame 0x80000923).wellFormed = true := by decide

/-! ### Decoding: a word of every constructor, its fields (zero, ok, idx, op) written out -/

theorem test_decode_tcalc : decode 0b000000000000000000000_0_00_00000001#32 = .instr .tcalc := by decide
theorem test_decode_pricmp : decode 0b000000000000000000000_0_00_00000010#32 = .instr .pricmp := by decide
theorem test_decode_canacc : decode 0b000000000000000000000_0_00_00010000#32 = .instr .canacc := by decide
theorem test_decode_mbload : decode 0b000000000000000000000_0_00_00010001#32 = .instr .mbload := by decide
theorem test_decode_qpush : decode 0b000000000000000000000_0_00_00100000#32 = .instr .qpush := by decide
theorem test_decode_qpop : decode 0b000000000000000000000_0_00_00100001#32 = .instr .qpop := by decide
theorem test_decode_qreset : decode 0b000000000000000000000_0_00_00100010#32 = .instr .qreset := by decide
theorem test_decode_qlen : decode 0b000000000000000000000_0_00_00100011#32 = .instr .qlen := by decide
theorem test_decode_evtxc : decode 0b000000000000000000000_1_01_00110000#32 = .instr (.evtxc 1#2 true) := by decide
theorem test_decode_evrxa : decode 0b000000000000000000000_0_10_00110001#32 = .instr (.evrxa 2#2) := by decide
theorem test_decode_evsts : decode 0b000000000000000000000_0_00_00110010#32 = .instr .evsts := by decide
theorem test_decode_start : decode 0b000000000000000000000_0_00_01000000#32 = .instr .start := by decide
theorem test_decode_stop : decode 0b000000000000000000000_0_00_01000001#32 = .instr .stop := by decide
theorem test_decode_send : decode 0b000000000000000000000_0_00_01000010#32 = .instr .send := by decide
theorem test_decode_receive : decode 0b000000000000000000000_0_00_01000011#32 = .instr .receive := by decide
theorem test_decode_waittx : decode 0b000000000000000000000_0_00_01001000#32 = .instr .waittx := by decide
theorem test_decode_waitrx : decode 0b000000000000000000000_0_00_01001001#32 = .instr .waitrx := by decide
theorem test_decode_rderr : decode 0b000000000000000000000_0_00_01010000#32 = .instr .rderr := by decide
theorem test_decode_rdovf : decode 0b000000000000000000000_0_00_01010001#32 = .instr .rdovf := by decide
theorem test_decode_rdtxc : decode 0b000000000000000000000_0_00_01010010#32 = .instr .rdtxc := by decide
theorem test_decode_rdrxc : decode 0b000000000000000000000_0_00_01010011#32 = .instr .rdrxc := by decide
theorem test_decode_rdlec : decode 0b000000000000000000000_0_00_01010100#32 = .instr .rdlec := by decide
theorem test_decode_rdpeak : decode 0b000000000000000000000_0_00_01010101#32 = .instr .rdpeak := by decide
theorem test_decode_rdact : decode 0b000000000000000000000_0_00_01010110#32 = .instr .rdact := by decide

/-- Reserved codes at the edges of the ranges of R101. -/
theorem test_decode_reserved : ∀ op ∈ [0x00, 0x03, 0x0F, 0x12, 0x1F, 0x24, 0x2F, 0x33, 0x3F, 0x44, 0x47, 0x4A, 0x4F,
    0x57, 0xFF], decode (BitVec.ofNat 32 op) = .illegal .reservedCode := by decide

/-! ### The vectors of section 2 and 3 -/

/-- TCALC with these operands. -/
def tcalcOf (clk rate : Word) : State := { State.reset with ops := { State.reset.ops with clk := clk, rate := rate } }

/-- T1, T8, T10 and the vector for `sum = 9`. -/
theorem test_tcalc_ok : ∀ v ∈ [(36000000, 1000000, 0x11070004), (4000000, 1000000, 0x11020001),
    (17408, 1, 0x120E0400), (10000000, 1000000, 0x11080001)],
    after (exec .tcalc (tcalcOf (BitVec.ofNat 32 v.1) (BitVec.ofNat 32 v.2.1)))
      (fun u => u.resT.status == 0 && u.resT.tim.word == BitVec.ofNat 32 v.2.2) = true := by decide

/-- T6 (LOGIC), T9, T11, T34, T36. -/
theorem test_tcalc_fails : ∀ v ∈ [(36000000, 999999, 0x05), (3000000, 1000000, 0x01), (17425, 1, 0x01),
    (36000000, 2000, 0x01), (5, 0, 0x01)],
    after (exec .tcalc (tcalcOf (BitVec.ofNat 32 v.1) (BitVec.ofNat 32 v.2.1)))
      (fun u => u.resT.status == BitVec.ofNat 8 v.2.2) = true := by decide

/-- PRICMP of two identifier words. -/
def compares (a b : Word) (r : Bool) : Bool :=
  after (exec .pricmp { State.reset with ops := { State.reset.ops with frm := frame a, frmB := frame b } })
    (fun u => u.resT.flag == r && u.resT.status == 0)

/-- C2, C4, C5, C6, C9. -/
theorem test_pricmp_formats : compares 0x123 0x123 false && compares 0x123 0x848C0000 true &&
    compares 0x40000123 0x848C0000 true && compares 0x848BFFFF 0x123 true && compares 0xC00000FF 0x80000100 true =
    true := by decide

/-- C3 both ways, C8, C13, C14. -/
theorem test_pricmp_remote_masked : compares 0x123 0x40000123 true && compares 0x40000123 0x123 false &&
    compares 0xC0000100 0x80000100 false && compares 0x923 0x123 false && compares 0x2922 0x123 true = true := by decide

/-! ### Section 5 -/

/-- CANACC of a frame with slot 0 pending. -/
def accepts (tme : BitVec 3) (pend cand : Word) (r : Bool) : Bool :=
  after (exec .canacc (withFrm (frame cand) (slots tme (some (frame pend)) none runT))) (fun u => u.resT.flag == r)

/-- A2, A9: the fast paths. -/
theorem test_canacc_fast : accepts 0b000 0x200 0x000 false && accepts 0b111 0x100 0x300 true = true := by decide

/-- A3, A4, A5, A5b, A5c: the mixed path. -/
theorem test_canacc_mixed : accepts 0b110 0x200 0x300 false && accepts 0b110 0x200 0x200 false &&
    accepts 0b110 0x200 0x1FF true && accepts 0b110 0x200 0x88000000 false && accepts 0b110 0x200 0x40000200 false =
    true := by decide

/-- B2. -/
theorem test_mbload_slot2 :
    after (exec .mbload (withFrm ⟨0x87FBFFFF, 8, #v[1, 2, 3, 4, 5, 6, 7, 8]⟩
      (slots 0b100 (some (frame 0x100)) (some (frame 0x200)) runT)))
      (fun u => u.resT.status == 0 && u.drv.peakMb == 2 && u.ctrl.status.tme == 0 &&
        u.ctrl.regs.mbox[2] == ⟨0x07FBFFFF, true, false, 8, 0x04030201, 0x08070605, true⟩) = true := by decide

/-- B6, B3: shape before slot search. -/
theorem test_mbload_refuses :
    after (exec .mbload (withFrm (frame 0x20000001) (slots 0b000 none none runT))) (fun u => u.resT.status == 0x04) &&
      after (exec .mbload (withFrm (frame 0) (slots 0b000 none none runT))) (fun u => u.resT.status == 0x10) = true := by
  decide

/-! ### Section 4 -/

/-- The worked example of R191: a push into a full queue evicts the oldest. -/
theorem test_qpush_evicts :
    after (exec .qpush { withQueue full runI with ops := { State.reset.ops with frm := (entry 16).frame } })
      (fun u => u.drv.rxq.head == 6 && u.drv.rxq.tail == 6 && u.drv.rxq.len == 16 && u.drv.rxq.ovf == 1 &&
        u.drv.rxq.oldest == entry 6 && u.drv.rxq.buf[5].frame == (entry 16).frame && u.drv.rxCnt == 1) = true := by
  decide

/-- Q9: a failed loopback frame wakes and is not counted. -/
theorem test_qpush_loopback :
    after (exec .qpush { runI with ops := { State.reset.ops with rxf := ⟨true, true⟩, ts := 7 } })
      (fun u => u.drv.rxq.len == 1 && u.drv.rxEv && u.drv.rxCnt == 0 && !u.drv.activity) = true := by decide

/-- Q2. -/
theorem test_qpop_oldest :
    after (exec .qpop (withQueue (queued 2) runT))
      (fun u => u.resT.rxf == entry 0 && u.drv.rxq.tail == 1 && u.drv.rxq.len == 1 && u.drv.rxq.head == 2) = true := by
  decide

/-- Q6. -/
theorem test_qpop_empty :
    after (exec .qpop runT) (fun u => u.resT.status == 0xF4 && u.drv == runT.drv) = true := by decide

/-- Q7, on the full queue. -/
theorem test_qreset :
    after (exec .qreset { runT with drv := { Driver.absent with rxq := full, rxEv := true } })
      (fun u => u.drv.rxq.len == 0 && u.drv.rxq.ovf == 0 && u.drv.rxq.head == 0 && u.drv.rxEv &&
        u.drv.rxq.buf == full.buf) = true := by decide

/-- Q2's QLEN before its QPOP, and a full queue. -/
theorem test_qlen :
    after (exec .qlen (withQueue (queued 2) runT)) (fun u => u.resT.val == 2) &&
      after (exec .qlen (withQueue full runT)) (fun u => u.resT.val == 16) = true := by decide

/-! ### Section 6 -/

/-- H1. -/
theorem test_evtxc_loopback :
    after (exec (.evtxc 0 true) { runI with drv := loopF, ops := { State.reset.ops with ts := 105 } })
      (fun u => u.drv.txCnt == 1 && u.drv.activity && u.drv.txEv && u.drv.rxEv && u.drv.rxCnt == 0 &&
        u.drv.slots[0].pending == false &&
        u.drv.rxq.contents == [⟨⟨0x123, 2, bytes 1 2⟩, true, false, 105⟩]) = true := by decide

/-- H4, H5. -/
theorem test_evtxc_not_pending :
    after (exec (.evtxc 1 true) { runI with drv := loopF }) (fun u => u.drv.rxq.len == 0 && u.drv.txCnt == 1) &&
      after (exec (.evtxc 3 true) runI) (fun u => u.resI.status == 0xF3 && u.drv == runI.drv) = true := by decide

/-- H6: the overflow is counted, the frame decoded, the entry released. -/
theorem test_evrxa_receives :
    after (exec (.evrxa 0) { presenting 0 (msg 1) true runI with now := 700 })
      (fun u => u.drv.rxq.ovf == 1 && u.drv.rxCnt == 1 && u.ctrl.status.fifo[0].entries == [] &&
        u.drv.rxq.contents == [⟨⟨0x321, 1, bytes 0xAA 0⟩, false, false, 700⟩]) = true := by decide

/-- H6d, H6e. -/
theorem test_evrxa_faults :
    after (exec (.evrxa 0) (presenting 0 (msg 9) true runI))
      (fun u => u.resI.status == 0xF5 && u.drv == runI.drv && u.ctrl.status.fifo[0].entries == [msg 9]) &&
      after (exec (.evrxa 2) runI) (fun u => u.resI.status == 0xF3) = true := by decide

/-- H7, with B in slot 1. -/
theorem test_evsts_bus_off :
    after (exec .evsts (errors true 5
      { slots 0b100 (some (frame 0x100)) (some (frame 0x0F0)) runI with ops := { State.reset.ops with ts := 2000 } }))
      (fun u => u.drv.rxq.len == 0 && u.drv.txEv && u.ctrl.status.abrq == 0b111 && !u.ctrl.status.errFlag &&
        u.drv.lastErr == 5 && u.drv.errCnt == 1 && u.drv.slots[1].pending == false) &&
    after (exec .evsts (errors true 0 { runI with drv := loopF, ops := { State.reset.ops with ts := 2000 } }))
      (fun u => u.drv.rxq.contents == [⟨⟨0x123, 2, bytes 1 2⟩, true, true, 2000⟩] && u.drv.rxCnt == 0) = true := by
  decide

/-- H10. -/
theorem test_evsts_no_code :
    after (exec .evsts (errors false 0 { runI with drv := { Driver.absent with lastErr := 3, errCnt := 7 } }))
      (fun u => u.drv.lastErr == 3 && u.drv.errCnt == 7 && !u.ctrl.status.errFlag && !u.drv.txEv) = true := by decide

/-! ### Section 7: the sequences, one step each -/

/-- START reads its operands when it is written (10_state R22). -/
theorem test_start_begins :
    after (exec .start (tcalcOf 36000000 1000000))
      (fun u => u.seqs == [(0, .start .acquire 36000000 1000000 ⟨false, false⟩)] && u.sess == .stopped) = true := by
  decide

/-- S2: the rate fails after Driver State was constructed. -/
theorem test_start_bad_rate :
    after (exec .start (inSeq (.start (.checkTim .invalidBitRate) 36000000 70000 ⟨false, false⟩) State.reset))
      (fun u => u.resT.status == 0x01 && u.sess == .stopped && u.mtx == none && u.seqs == []) = true := by decide

/-- S4c: STOP in Stopped goes through its steps. -/
theorem test_stop_low_power :
    after (exec .stop (inSeq (.stop .lowPower) State.reset))
      (fun u => u.ctrl.regs.lowPower && u.seqs == [(0, .stop .clearIrq)]) = true := by decide

/-- S4c: and returns OK. -/
theorem test_stop_returns :
    after (exec .stop (inSeq (.stop .finish) State.reset)) (fun u => u.resT.status == 0 && u.mtx == none) = true := by
  decide

/-- S6c: the shape is refused by MBLOAD, after CANACC. -/
theorem test_send_unsupported :
    after (exec .send (inSeq (.send (.loaded 0 .unsupportedFrame) (frame 0x20000001) 10) runT))
      (fun u => u.resT.status == 0x04 && u.mtx == none) = true := by decide

/-- S6: NOT_SENT once the elapsed time has reached the timeout, across the wrap of the clock (R258). -/
theorem test_send_elapsed_wraps :
    after (exec .send (inSeq (.send (.tail 0xFFFFFFFE .elapsed) (frame 1) 4) { runT with now := 2 }))
      (fun u => u.seqs == [(0, .send (.tail 0xFFFFFFFE (.check 4)) (frame 1) 4)]) &&
      after (exec .send (inSeq (.send (.tail 0xFFFFFFFE (.check 4)) (frame 1) 4) runT))
        (fun u => u.resT.status == 0x11) = true := by decide

/-- S8. -/
theorem test_receive_oldest :
    after (exec .receive (inSeq (.receive (.tryPop 0) 0) (withQueue (queued 1) runT)))
      (fun u => u.resT.status == 0 && u.resT.rxf == entry 0 && u.drv.rxq.len == 0 && u.mtx == none) = true := by decide

/-- S9: issued in Stopped it goes to take the lock; then it faults and the lock is released. -/
theorem test_receive_stopped :
    after (exec .receive State.reset) (fun u => u.resT == State.reset.resT && u.seqs == [(0, .receive .acquire 0)]) &&
      after (exec .receive (inSeq (.receive .checkRunning 0) State.reset))
        (fun u => u.resT.status == 0xF2 && u.mtx == none && u.seqs == []) = true := by decide

/-- W1. -/
theorem test_waittx_signalled :
    after (exec .waittx { runT with
      seqs := [(0, .waitTx 50 100)], wake := .signalled, drv := { Driver.absent with txEv := true } })
      (fun u => u.resT.status == 0 && !u.drv.txEv && u.seqs == []) = true := by decide

/-- W2: not expired at 149, expired at 150. -/
theorem test_waittx_expires :
    after (exec .waittx { runT with seqs := [(0, .waitTx 50 100)], now := 149 })
      (fun u => u.seqs == [(0, .waitTx 50 100)]) &&
      after (exec .waittx { runT with seqs := [(0, .waitTx 50 100)], now := 150 })
        (fun u => u.resT.status == 0x13 && u.seqs == []) = true := by decide

/-- W3. -/
theorem test_waitrx_zero_budget :
    after (exec .waitrx { runT with seqs := [(0, .waitRx 9 0)], now := 9 }) (fun u => u.resT.status == 0x13) = true := by
  decide

/-- W2 for WAITRX: a spurious wake returns OK and leaves the latch. -/
theorem test_waitrx_spurious :
    after (exec .waitrx { runT with
      seqs := [(0, .waitRx 9 5)], wake := .spurious, drv := { Driver.absent with rxEv := true } })
      (fun u => u.resT.status == 0 && u.drv.rxEv) = true := by decide

/-- The reads of R1, on the end state of program P3. -/
def endP3 : State := { runT with drv := { Driver.absent with errCnt := 1, lastErr := 5, peakMb := 1 } }

theorem test_rderr : after (exec .rderr endP3) (fun u => u.resT.val == 1) = true := by decide
theorem test_rdovf : after (exec .rdovf (withQueue { full with ovf := 1 } runT)) (fun u => u.resT.val == 1) = true := by decide
theorem test_rdtxc : after (exec .rdtxc { runT with drv := { Driver.absent with txCnt := 9 } })
    (fun u => u.resT.val == 9) = true := by decide
theorem test_rdrxc : after (exec .rdrxc { runT with drv := { Driver.absent with rxCnt := 17 } })
    (fun u => u.resT.val == 17) = true := by decide
theorem test_rdlec : after (exec .rdlec endP3) (fun u => u.resT.val == 5) = true := by decide
theorem test_rdpeak : after (exec .rdpeak endP3) (fun u => u.resT.val == 1) = true := by decide

/-- R2. -/
theorem test_rdact : after (exec .rdact { runT with drv := { Driver.absent with activity := true } })
    (fun u => u.resT.flag && !u.drv.activity) = true := by decide

/-- R3. -/
theorem test_rderr_stopped : after (exec .rderr State.reset) (fun u => u.resT.status == 0xF2) = true := by decide

/-- X1, X3, X6, through the step: the fault codes, the context checked before the session. -/
theorem test_step_faults :
    after (step { State.reset with sched := [.cmd (.thread 0) 0x00000000#32] }) (fun u => u.resT.status == 0xF0) &&
      after (step { State.reset with sched := [.cmd (.thread 0) 0x00000101#32] }) (fun u => u.resT.status == 0xF0) &&
      after (step { State.reset with sched := [.cmd (.thread 0) 0x00000020#32] }) (fun u => u.resT.status == 0xF1) =
    true := by decide

/-- A placed command is the next step, in the context its operation belongs to (H12: with no session, NOT_RUNNING). -/
theorem test_placed_command :
    after (step (State.reset.withFetchWord 32 0x00000430)) (fun u => u.resI.status == 0xF2) &&
      after (step (State.reset.withFetchWord 32 0x00000001)) (fun u => u.resT.status == 0x01) = true := by decide

/-- STOP's third command leaves no cause standing, FIFO counts among them (10_state R46). -/
theorem test_stop_clears_causes :
    after (exec .stop (inSeq (.stop .clearIrq) (presenting 0 (msg 1) true (errors false 0 State.reset))))
      (fun u => u.ctrl.status.fifo[0] == ⟨[], true⟩ && !u.ctrl.status.errFlag && u.seqs == [(0, .stop .finish)]) =
    true := by decide

/-- A handler does not come between START's steps while the sources are off, and does once they are on (20_memory R72 a). -/
theorem test_start_silences :
    let s := { inSeq (.start .irqOn 1 1 ⟨false, false⟩) runT with sched := [.cmd .interrupt 0x00000032#32] }
    after (step s) (fun u => u == { s with sched := [] }) &&
      after (step { s with ctrl := { s.ctrl with regs := { s.ctrl.regs with irqEn := .allSix } } })
        (fun u => u.drv == s.drv && u.agent == .interrupt) = true := by decide

/-- R317: a run is over with other agents' moves left, not with a host's; a fault a later operation overwrites counts. -/
theorem test_run_over :
    State.runOver 1 { State.reset with sched := [.cmd (.thread 0) 0x00000002#32, .tick 1] } &&
      !State.runOver 0 { State.reset with sched := [.cmd (.thread 0) 0x00000002#32] } &&
      !State.runOver 2 { State.reset with
        sched := [.cmd (.thread 0) 0x00000000#32, .cmd (.thread 0) 0x00000002#32] } &&
      State.quiescent 1 { State.reset with sched := [.cmd (.thread 0) 0x00000002#32] } &&
      !State.quiescent 0 (presenting 1 (msg 1) false State.reset) = true := by decide

/-! ### Witnesses: concrete states and operands that meet the hypotheses of each obligation, clause by clause -/

/-- The codes of 30_encoding R101. -/
abbrev ReservedCode (n : Nat) : Prop :=
  n = 0x00 ∨ (0x03 ≤ n ∧ n ≤ 0x0F) ∨ (0x12 ≤ n ∧ n ≤ 0x1F) ∨ (0x24 ≤ n ∧ n ≤ 0x2F) ∨ (0x33 ≤ n ∧ n ≤ 0x3F) ∨
    (0x44 ≤ n ∧ n ≤ 0x47) ∨ (0x4A ≤ n ∧ n ≤ 0x4F) ∨ 0x57 ≤ n

theorem witness_ReservedEncodingsRaiseIllegalOp :
    (0x00000801#32).extractLsb' 11 21 ≠ 0 ∧ (0x80000001#32).extractLsb' 11 21 ≠ 0 ∧
      (∀ n ∈ [0x00, 0x03, 0x0F, 0x12, 0x1F, 0x24, 0x2F, 0x33, 0x3F, 0x44, 0x47, 0x4A, 0x4F, 0x57, 0xFF],
        ReservedCode n) ∧ ReservedCode ((0x00000057#32).extractLsb' 0 8).toNat ∧
      (0x00000101#32).extractLsb' 8 2 ≠ 0 ∧ (0x00000431#32).getLsbD 10 = true := by decide

/-- A thread's command and a thread's carrying on are next. -/
def commandNext : State := { State.reset with sched := [.cmd (.thread 1) 0x00000001#32] }
def carryNext : State := { inSeq (.send .entry (frame 1) 10) runT with sched := [.run 0 .expired] }

theorem witness_StepRunsDecodedInstruction :
    (commandNext.sched = [.cmd (.thread 1) 0x00000001#32] ∧ mayIssue (.thread 1) commandNext = true ∧
      decode 0x00000001#32 = .instr .tcalc) ∧
    (carryNext.sched = [.run 0 .expired] ∧ carryNext.irq = none ∧
      seqGet 0 carryNext.seqs = some (.send .entry (frame 1) 10)) := by decide

theorem witness_PlacedCommandRunsNext :
    decodeTableWord 32 0x530 = some (.evtxc 1 true) ∧ decodeTableWord 32 0x42 = some .send ∧
      (inSeq (.stop .sessStop) runT).silenced = true ∧ (inSeq (.stop .acquire) runT).silenced = false := by decide

theorem witness_WrongContextRaisesContext :
    runT.agent ≠ .interrupt ∧ runI.agent = .interrupt ∧
      exec .qpush runT = .next (runT.setStatus 0xF1) ∧ exec .start runI = .next (runI.setStatus 0xF1) :=
  ⟨by decide, rfl, rfl, rfl⟩

/-- A thread looks for the session in Stopped, the lock held. -/
def sendStopped : State := inSeq (.send .checkRunning (frame 1) 10) State.reset
def receiveStopped : State := inSeq (.receive .checkRunning 10) State.reset

theorem witness_StoppedRaisesNotRunning :
    (State.reset.sess = .stopped ∧ State.reset.curSeq = none ∧ State.reset.agent ≠ .interrupt) ∧
    ({ State.reset with agent := .interrupt }).curSeq = none ∧
    (sendStopped.sess = .stopped ∧ sendStopped.agent = .thread 0 ∧
      seqGet 0 sendStopped.seqs = some (.send .checkRunning (frame 1) 10)) ∧
    (receiveStopped.sess = .stopped ∧ seqGet 0 receiveStopped.seqs = some (.receive .checkRunning 10)) := by decide

theorem witness_OwnFaultsChangeNothingElse :
    (runI.agent = .interrupt ∧ runI.sess = .running) ∧ 2 ≤ (2#2).toNat ∧ 2 ≤ (3#2).toNat ∧
    runI.ctrl.status.fifo[(1 : Fin 2)].entries = [] ∧
    ((presenting 0 (msg 9) false runI).ctrl.status.fifo[(0 : Fin 2)].entries = [msg 9] ∧ 8 < (msg 9).dlc.toNat) ∧
    ((presenting 1 (msg 15) false runI).ctrl.status.fifo[(1 : Fin 2)].entries = [msg 15] ∧ 8 < (msg 15).dlc.toNat) ∧
    (runT.agent = .thread 0 ∧ runT.drv.rxq.len = 0) := by decide

theorem witness_TcalcFindsTimings :
    (LargestSum 36 (topSum 1000000) 8 ∧ 36000000 / 1000000 = 36 ∧ 36 / (1 + 8) = 4 ∧ 36000000 / 36 = 1000000) ∧
    (LargestSum 4 (topSum 1000000) 3 ∧ LargestSum 17408 (topSum 1) 16 ∧ 17408 / (1 + 16) = 1024) ∧
    (LargestSum 36 (topSum 999999) 11 ∧ 36000000 / 999999 = 36 ∧ 36000000 / 36 ≠ 999999) := by decide

theorem witness_TcalcRejectsRates :
    (tcalcOf 5 0).ops.rate.toNat = 0 ∧ (∀ n ≤ topSum 1000000, 3 ≤ n → ¬(1 + n) ∣ 3) ∧
      (LargestSum 17425 (topSum 1) 16 ∧ 1024 < 17425 / (1 + 16)) ∧ (LargestSum 0 (topSum 1000000) 9 ∧ 0 / (1 + 9) < 1) := by
  decide

theorem witness_TcalcPostconditions :
    ∃ t, exec .tcalc (tcalcOf 36000000 1000000) = .next t ∧ t.res.status = 0x00 := ⟨_, rfl, by decide⟩

theorem witness_PricmpFollowsSteps :
    ((frame 0x123).ext ≠ (frame 0x848BFFFF).ext ∧ (frame 0x123).arb11 ≠ (frame 0x848BFFFF).arb11) ∧
    ((frame 0x123).ext ≠ (frame 0x848C0000).ext ∧ (frame 0x123).arb11 = (frame 0x848C0000).arb11) ∧
    ((frame 0x123).ext = (frame 0x40000923).ext ∧ (frame 0x123).mid = (frame 0x40000923).mid ∧
      (frame 0x123).rtr ≠ (frame 0x40000923).rtr) ∧
    ((frame 0x9FFFFFFF).ext = (frame 0x9FFFFFFE).ext ∧ (frame 0x9FFFFFFF).mid ≠ (frame 0x9FFFFFFE).mid) ∧
    ((frame 0x20000123).ext = (frame 0x123).ext ∧ (frame 0x20000123).mid = (frame 0x123).mid ∧
      (frame 0x20000123).rtr = (frame 0x123).rtr) := by decide

theorem witness_PriorityIsStrictTotalOrder :
    (higherPriority (frame 0x000) (frame 0x123) = true ∧ higherPriority (frame 0x123) (frame 0x848C0000) = true) ∧
    ((frame 0x923).ext, (frame 0x923).mid, (frame 0x923).rtr) = ((frame 0x123).ext, (frame 0x123).mid, (frame 0x123).rtr) ∧
    ((frame 0x123).ext, (frame 0x123).mid, (frame 0x123).rtr) ≠
      ((frame 0x848C0000).ext, (frame 0x848C0000).mid, (frame 0x848C0000).rtr) := by decide

/-- The hypotheses shared by the stand-alone operations of a thread in a session: CANACC, QRESET, the reads. -/
theorem witness_CanaccDecides : runT.agent = .thread 0 ∧ runT.sess = .running := by decide

theorem witness_QresetClearsIndices : runT.agent = .thread 0 ∧ runT.sess = .running := witness_CanaccDecides
theorem witness_CounterReads : endP3.agent = .thread 0 ∧ endP3.sess = .running := by decide
theorem witness_ValueReads : endP3.agent = .thread 0 ∧ endP3.sess = .running := by decide
theorem witness_RdactReadsAndClears : endP3.agent = .thread 0 ∧ endP3.sess = .running := by decide

/-- B7: slots 0 and 2 busy; the largest shape accepted. -/
def loadable (tme : BitVec 3) : State := withFrm ⟨0x87FBFFFF, 8, bytes 1 2⟩ (slots tme none none runT)

theorem witness_MbloadLoadsFirstFreeSlot :
    ∀ v ∈ [(0b111#3, (0 : Fin 3)), (0b010#3, 1), (0b100#3, 2)],
      let s := loadable v.1
      s.agent = .thread 0 ∧ s.sess = .running ∧ s.ops.frm.id.getLsbD 29 = false ∧ s.ops.frm.dlc.toNat ≤ 8 ∧
        s.ctrl.status.tme.getLsbD v.2.val = true ∧ ∀ j : Fin 3, j < v.2 → s.ctrl.status.tme.getLsbD j.val = false := by
  decide

theorem witness_MbloadRefusals :
    (withFrm (frame 0x20000001) runT).ops.frm.id.getLsbD 29 = true ∧
      8 < (withFrm ⟨1, 9, bytes 0 0⟩ runT).ops.frm.dlc.toNat ∧
      ((loadable 0b000).ops.frm.id.getLsbD 29 = false ∧ (loadable 0b000).ops.frm.dlc.toNat ≤ 8 ∧
        (loadable 0b000).ctrl.status.tme = 0b000#3 ∧ (loadable 0b000).sess = .running) := by decide

theorem witness_QpushAppends :
    runI.agent = .interrupt ∧ runI.sess = .running ∧ runI.drv.rxq.Inv ∧ full.Inv ∧
      (∃ q : RxQueue, q.Inv ∧ q.len = 15) ∧ runI.drv.rxCnt ≠ BitVec.allOnes 32 :=
  ⟨rfl, rfl, by decide, by decide, ⟨{ full with len := 15, tail := 6 }, by decide, rfl⟩, by decide⟩

theorem witness_FullPushReplacesOldest : full.Inv ∧ full.len = 16#5 := by decide

theorem witness_QpopReturnsOldest :
    (withQueue full runT).agent = .thread 0 ∧ (withQueue full runT).sess = .running ∧ (withQueue full runT).drv.rxq.len ≠ 0 ∧
      (withQueue (queued 1) runT).drv.rxq.len ≠ 0 := by decide

theorem witness_RingRefinesList :
    full.Inv ∧ full.contents.length = 16 ∧ (queued 1).Inv ∧ (queued 1).contents.length < 16 ∧
      (queued 1).contents ≠ [] ∧ (queued 0).Inv := by decide

theorem witness_EvtxcCompletesSlot :
    runI.agent = .interrupt ∧ runI.sess = .running ∧ (0#2).toNat = (0 : Fin 3).val ∧ (2#2).toNat = (2 : Fin 3).val := by
  decide

/-- FIFO 1 presents the largest data length code accepted. -/
def presents8 : State := presenting 1 (msg 8) true runI

theorem witness_EvrxaReceivesFrame :
    presents8.agent = .interrupt ∧ presents8.sess = .running ∧ (1#2).toNat = (1 : Fin 2).val ∧
      presents8.ctrl.status.fifo[(1 : Fin 2)].entries = msg 8 :: [] ∧ (msg 8).dlc.toNat ≤ 8 := by decide

theorem witness_EvstsHandlesStatus :
    (errors true 5 runI).agent = .interrupt ∧ (errors true 5 runI).sess = .running ∧
      (errors true 5 runI).ctrl.status.lec ≠ 0 ∧ (errors false 0 runI).ctrl.status.lec = 0 := by decide

theorem witness_WaitsAreIssued : runT.agent = .thread 0 ∧ runT.sess = .running ∧ seqGet 0 runT.seqs = none := by decide

/-- Thread 0 waits. -/
def waiting (q : Seq) : State := { runT with seqs := [(0, q)] }

theorem witness_WaitsComplete :
    (waiting (.waitTx 50 100)).agent = .thread 0 ∧ seqGet 0 (waiting (.waitTx 50 100)).seqs = some (.waitTx 50 100) ∧
      seqGet 0 (waiting (.waitRx 50 0)).seqs = some (.waitRx 50 0) := by decide

theorem witness_SequencesBegin :
    (runT.agent = .thread 0 ∧ seqGet 0 runT.seqs = none ∧ runT.sess = .running) ∧
      (State.reset.agent = .thread 0 ∧ seqGet 0 State.reset.seqs = none) := by decide

/-- Thread 0 stands before the lock. -/
theorem witness_AcquireTakesFreeLock :
    ∀ q ∈ [Seq.start .acquire 1 2 ⟨true, false⟩, .stop .acquire, .send .acquire (frame 1) 3, .receive .acquire 4],
      (waiting q).agent = .thread 0 ∧ seqGet 0 (waiting q).seqs = some q ∧ (waiting q).mtx = none ∧
        seqGet 0 (inSeq q runT).seqs = some q ∧ (inSeq q runT).mtx ≠ none := by decide

/-- Thread 0 stands at a place of START in Stopped, of START in a session, of STOP, of SEND, of RECEIVE. -/
def startAt (p : StartPos) (s : State) : State := inSeq (.start p 36000000 1000000 ⟨true, false⟩) s
def stopAt (p : StopPos) : State := inSeq (.stop p) runT
def sendAt (p : SendPos) : State := inSeq (.send p (frame 0x123) 10) runT
def receiveAt (p : RecvPos) : State := inSeq (.receive p 10) runT

/-- CTRL acknowledges. -/
def acked (s : State) : State := { s with ctrl := { s.ctrl with status := { s.ctrl.status with initAck := true } } }

theorem witness_StartEntersInitialization :
    (∀ p ∈ [StartPos.hwEnable, .irqOff, .sessStop, .reqInit, .pollEnter 0, .construct],
      (startAt p State.reset).agent = .thread 0 ∧
        seqGet 0 (startAt p State.reset).seqs = some (.start p 36000000 1000000 ⟨true, false⟩)) ∧
    (startAt .hwEnable State.reset).hwEnabled = false ∧
    (startAt .hwEnable { runT with hwEnabled := true }).hwEnabled = true ∧
    (startAt (.pollEnter 0) State.reset).ctrl.status.initAck = false ∧
    (startAt (.pollEnter 0) (acked State.reset)).ctrl.status.initAck = true := by decide

theorem witness_StartLeavesInitialization :
    (∀ p ∈ [StartPos.tcalc, .checkTim (.ok ⟨4, 1, 7, 1⟩), .checkTim .invalidBitRate, .checkTim .logic,
        .setTiming ⟨4, 1, 7, 1⟩, .sessRun, .irqOn, .reqExit, .pollExit 0, .failExit, .failStop, .failReturn, .filter, .finish],
      (startAt p runT).agent = .thread 0 ∧
        seqGet 0 (startAt p runT).seqs = some (.start p 36000000 1000000 ⟨true, false⟩)) ∧
    (startAt (.pollExit 0) runT).ctrl.status.initAck = false ∧
    (startAt (.pollExit 0) (acked runT)).ctrl.status.initAck = true := by decide

/-- S1: a whole START, issued at power-on by thread 3. -/
def startsAll : State :=
  { tcalcOf 36000000 1000000 with
    ops := { (tcalcOf 36000000 1000000).ops with opt := ⟨true, false⟩ }
    sched := startMoves 3 .expired ++ [] }

theorem witness_StartCompletes :
    startsAll.irq = none ∧ startsAll.mtx = none ∧ seqGet 3 startsAll.seqs = none ∧
      timingCalc startsAll.ops.clk.toNat startsAll.ops.rate.toNat = .ok ⟨4, 1, 7, 1⟩ ∧
      startsAll.sched = startMoves 3 .expired ++ [] := by decide

/-- S3, S2 and S4 at their last step: the lock held, in Stopped. -/
theorem witness_FailedStartLeavesStopped :
    ∀ p ∈ [StartPos.checkTim .invalidBitRate, .checkTim .logic, .failReturn],
      let s := startAt p State.reset
      s.LockInv ∧ s.SessionInv ∧ s.agent = .thread 0 ∧
        seqGet 0 s.seqs = some (.start p 36000000 1000000 ⟨true, false⟩) ∧
        after (exec .start s) (fun u => seqGet 0 u.seqs == none && u.resT.status != 0x00) = true := by decide

theorem witness_StopFollowsText :
    ∀ p ∈ [StopPos.irqOff, .sessStop, .lowPower, .clearIrq, .finish],
      (stopAt p).agent = .thread 0 ∧ seqGet 0 (stopAt p).seqs = some (.stop p) := by decide

/-- S4c, S7, S8: a whole STOP, SEND, RECEIVE. -/
def stopsAll : State := { runT with sched := .cmd (.thread 0) 0x00000041#32 :: carryOns 0 .expired 6 ++ [] }
def sendsAll : State :=
  { withFrm ⟨0x123, 2, bytes 1 2⟩ runT with sched := .cmd (.thread 0) 0x00000042#32 :: carryOns 0 .expired 6 ++ [] }
def receivesAll : State :=
  { withQueue (queued 1) runT with sched := .cmd (.thread 0) 0x00000043#32 :: carryOns 0 .expired 4 ++ [] }

theorem witness_StopCompletes :
    stopsAll.irq = none ∧ stopsAll.mtx = none ∧ seqGet 0 stopsAll.seqs = none ∧
      stopsAll.sched = .cmd (.thread 0) 0x00000041#32 :: carryOns 0 .expired 6 ++ [] := by decide

theorem witness_SendFollowsText :
    (∀ p ∈ [SendPos.checkRunning, .entry, .canacc 0, .mbload 0, .loaded 0 .ok, .loaded 0 .unsupportedFrame,
        .loaded 0 .noFreeSlot, .tail 0 .elapsed, .tail 0 (.check 10), .tail 0 (.check 9), .tail 0 (.issueWait 9),
        .tail 0 (.wait 5 1)],
      (sendAt p).agent = .thread 0 ∧ seqGet 0 (sendAt p).seqs = some (.send p (frame 0x123) 10) ∧
        (sendAt p).sess = .running) ∧
    (canAccept (frame 0x123) (sendAt (.canacc 0)).ctrl.status.tme (sendAt (.canacc 0)).drv.slots = true ∧
      canAccept (frame 0x123) (slots 0b000 none none (sendAt (.canacc 0))).ctrl.status.tme
        (slots 0b000 none none (sendAt (.canacc 0))).drv.slots = false) ∧
    ((10 : Tick).toNat ≤ (10 : Tick).toNat ∧ (9 : Tick).toNat < (10 : Tick).toNat) ∧
    (({ sendAt (.tail 0 (.wait 5 1)) with wake := .signalled }).wake = .signalled ∧ loopF.txEv = false ∧
      ({ loopF with txEv := true }).txEv = true) ∧
    ((sendAt (.tail 0 (.wait 5 1))).wake = .expired ∧ (1 : Tick).toNat ≤ (6 - 5 : Tick).toNat ∧
      (5 - 5 : Tick).toNat < (1 : Tick).toNat) := by decide

theorem witness_SendLoadsAtOnce :
    sendsAll.irq = none ∧ sendsAll.mtx = none ∧ seqGet 0 sendsAll.seqs = none ∧ sendsAll.sess = .running ∧
      sendsAll.ctrl.status.tme = 0b111#3 ∧ sendsAll.ops.frm.unsupported = false ∧
      sendsAll.sched = .cmd (.thread 0) 0x00000042#32 :: carryOns 0 .expired 6 ++ [] := by decide

theorem witness_ReceiveFollowsText :
    (∀ p ∈ [RecvPos.checkRunning, .entry, .tryPop 0, .tail 0 .elapsed, .tail 0 (.check 10), .tail 0 (.check 9),
        .tail 0 (.issueWait 9), .tail 0 (.wait 5 1)],
      (receiveAt p).agent = .thread 0 ∧ seqGet 0 (receiveAt p).seqs = some (.receive p 10) ∧
        (receiveAt p).sess = .running) ∧
    (receiveAt (.tryPop 0)).drv.rxq.len = 0 ∧ (withQueue (queued 1) (receiveAt (.tryPop 0))).drv.rxq.len ≠ 0 ∧
    (({ receiveAt (.tail 0 (.wait 5 1)) with wake := .signalled }).wake = .signalled ∧
      (receiveAt (.tail 0 (.wait 5 1))).drv.rxEv = false ∧ ({ loopF with rxEv := true }).rxEv = true) ∧
    ((receiveAt (.tail 0 (.wait 5 1))).wake = .expired ∧ (1 : Tick).toNat ≤ (6 - 5 : Tick).toNat ∧
      (5 - 5 : Tick).toNat < (1 : Tick).toNat) := by decide

theorem witness_ReceiveReturnsOldest :
    receivesAll.irq = none ∧ receivesAll.mtx = none ∧ seqGet 0 receivesAll.seqs = none ∧ receivesAll.sess = .running ∧
      receivesAll.drv.rxq.contents = entry 0 :: [] ∧
      receivesAll.sched = .cmd (.thread 0) 0x00000043#32 :: carryOns 0 .expired 4 ++ [] := by decide

theorem witness_TimeoutsNeverEarly :
    ((sendAt (.tail 0 (.check 10))).agent = .thread 0 ∧
      seqGet 0 (sendAt (.tail 0 (.check 10))).seqs = some (.send (.tail 0 (.check 10)) (frame 0x123) 10) ∧
      after (exec .send (sendAt (.tail 0 (.check 10))))
        (fun u => seqGet 0 u.seqs == none && u.resT.status == 0x11) = true) ∧
    (seqGet 0 (receiveAt (.tail 0 (.check 10))).seqs = some (.receive (.tail 0 (.check 10)) 10) ∧
      after (exec .receive (receiveAt (.tail 0 (.check 10))))
        (fun u => seqGet 0 u.seqs == none && u.resT.status == 0x12) = true) := by decide

theorem witness_OperationsKeepInputs : ∃ t, exec .mbload (loadable 0b111) = .next t := ⟨_, rfl⟩

theorem witness_ContextsAreSeparate :
    (∃ t, exec .evsts (errors true 5 runI) = .next t ∧ (errors true 5 runI).agent = .interrupt) ∧
      (∃ t, exec .rderr endP3 = .next t ∧ endP3.agent ≠ .interrupt) := ⟨⟨_, rfl, rfl⟩, ⟨_, rfl, by decide⟩⟩

theorem witness_ThreadsNeverCompleteOrSignal :
    (∃ t, exec .canacc { runT with drv := loopF } = .next t) ∧ loopF.slots[(0 : Fin 3)].pending = true ∧
      (∃ t, exec .rdact { runT with drv := { loopF with txEv := true, rxEv := true } } = .next t ∧
        t.drv.txEv = true ∧ t.drv.rxEv = true) := ⟨⟨_, rfl⟩, rfl, ⟨_, rfl, rfl, rfl⟩⟩

theorem witness_HandlersLeaveSession :
    ∃ t, exec (.evrxa 1) presents8 = .next t ∧ presents8.agent = .interrupt ∧ presents8.drv.rxq.Inv :=
  ⟨_, rfl, rfl, by decide⟩

theorem witness_OverflowNeverFalls :
    ∃ t, exec .qpush (withQueue full runI) = .next t ∧ Instr.qpush ≠ .qreset ∧ Instr.qpush ≠ .start ∧
      Instr.qpush ≠ .stop := ⟨_, rfl, by decide, by decide, by decide⟩

theorem witness_SendReceiveFrame :
    (∃ t, exec .send (sendAt (.mbload 0)) = .next t) ∧ (∃ t, exec .receive (receiveAt (.tail 0 (.check 10))) = .next t) :=
  ⟨⟨_, rfl⟩, ⟨_, rfl⟩⟩

theorem witness_StartStopFrame :
    (∃ t, exec .start (startAt .tcalc State.reset) = .next t) ∧ (∃ t, exec .stop (stopAt .clearIrq) = .next t) :=
  ⟨⟨_, rfl⟩, ⟨_, rfl⟩⟩

theorem witness_InputMovesChangeInputsOnly :
    ({ runT with sched := [.load (.thread 0) (.frm 1 2)] }).sched = [.load (.thread 0) (.frm 1 2)] ∧
      mayIssue (.thread 0) runT = true ∧ mayIssue .interrupt runT = true ∧
      ({ runT with sched := [.tick 5, .ctrl (.txDone 0 true)] }).sched = [.tick 5, .ctrl (.txDone 0 true)] ∧
      runT.sess = .running ∧ State.reset.sess = .stopped ∧ runT.ctrl.status.tme.getLsbD 2 = true ∧
      (slots 0b011 none none runT).ctrl.status.tme.getLsbD 2 = false ∧
      ({ runT.ctrl.status with tme := 0b011, abrq := 0b100 }).abrq.getLsbD 2 = true := by decide

/-- All six sources enabled, slot 1 completed, FIFO 0 not empty, the error flag standing, inside an entry at tick 9. -/
def entered : State :=
  { runT with
    ctrl :=
      { status :=
          { runT.ctrl.status with
            rqcp := 0b010, txok := 0b010, errFlag := true, fifo := runT.ctrl.status.fifo.set 0 ⟨[msg 1], false⟩ },
        regs := { runT.ctrl.regs with irqEn := .allSix } }
    irq := some 9 }

theorem witness_InterruptEntryAndReturn :
    ({ entered with sched := [.irqEnter], irq := none }).sched = [.irqEnter] ∧ entered.sess = .running ∧
      entered.ctrl.line = true ∧ runT.ctrl.line = false ∧
      ({ runT with sched := [.irqLeave], irq := some 9 }).sched = [.irqLeave] ∧ entered.irq ≠ none ∧
      ({ entered with sched := [.run 0 .expired] }).sched = [.run 0 .expired] ∧
      (∀ p ∈ [StartPos.hwEnable, .sessStop, .irqOn, .failReturn], p ≠ .acquire ∧
        (startAt p runT).ctrl.regs.irqEn = .none ∧
        seqGet 0 (startAt p runT).seqs = some (.start p 36000000 1000000 ⟨true, false⟩)) ∧
      (∀ p ∈ [StopPos.sessStop, .finish], p ≠ .acquire ∧ seqGet 0 (stopAt p).seqs = some (.stop p)) := by decide

theorem witness_DispatcherServesCauses :
    entered.irq = some 9 ∧ (∀ c ∈ [Cause.txc 1, .rx 0, .status], entered.ctrl.raised c = true) ∧
      ({ entered with sched := [.dispatch (.txc 1)] }).sched = [.dispatch (.txc 1)] := by decide

/-- Thread 0 inside a SEND of a session, its move next; the machine goes on and the invariants hold before. -/
theorem witness_StepKeepsLock : carryNext.LockInv ∧ ∃ t, step carryNext = .next t := ⟨by decide, ⟨_, rfl⟩⟩

theorem witness_StepKeepsSession :
    carryNext.LockInv ∧ carryNext.SessionInv ∧ (startAt .sessRun State.reset).SessionInv ∧
      ∃ t, step carryNext = .next t := ⟨by decide, by decide, by decide, ⟨_, rfl⟩⟩

/-- A frame is received into a full queue, and a slot is loaded, at the next step. -/
def receivesNext : State :=
  { withQueue full (presenting 0 (msg 8) false runI) with
    irq := some 9, sched := [.dispatch (.rx 0)]
    ctrl := { (presenting 0 (msg 8) false runI).ctrl with regs := { runI.ctrl.regs with irqEn := .allSix } } }
def loadsNext : State := { loadable 0b100 with sched := [.cmd (.thread 0) 0x00000011#32] }

theorem witness_StepKeepsRanges :
    (receivesNext.drv.RangeInv ∧ ∃ t, step receivesNext = .next t) ∧ (loadsNext.drv.RangeInv ∧ ∃ t, step loadsNext = .next t) :=
  ⟨⟨by decide, ⟨_, rfl⟩⟩, ⟨by decide, ⟨_, rfl⟩⟩⟩

theorem witness_StepKeepsShapes :
    ({ runT with drv := loopF }).drv.ShapeInv ∧ loadsNext.drv.ShapeInv ∧ ∃ t, step loadsNext = .next t :=
  ⟨by decide, by decide, ⟨_, rfl⟩⟩

/-- The one-time enable is next. -/
def enablesNext : State := { startAt .hwEnable State.reset with sched := [.run 0 .expired] }

theorem witness_StepKeepsEnableOnce :
    enablesNext.EnableInv ∧ ∃ t, step enablesNext = .next t ∧ t.hwEnabled = true ∧ t.ctrl.regs.enables = 1 :=
  ⟨by decide, ⟨_, rfl, rfl, rfl⟩⟩

end Sys2Proof.Tests
end

/-! SUPPORT. The receive queue as a list (42_receive_queue R190 to R195). -/

namespace Sys2Proof.Machine

/-! ### The receive queue -/

/-- With the invariant, adding one to the length does not wrap. -/
theorem RxQueue.len_add_one_toNat {q : RxQueue} (h : q.Inv) : (q.len + 1).toNat = q.len.toNat + 1 := by
  have hle := h.1
  bv_omega

/-- A push with room appends at `head` and drops nothing (42_receive_queue R191). -/
theorem RxQueue.push_of_lt {q : RxQueue} (h : q.Inv) (hl : q.len.toNat < 16) (e : ReceivedFrame) :
    q.push e = { q with buf := q.buf.set q.head.toNat e q.head.isLt, head := ringInc q.head, len := q.len + 1 } := by
  have hlen := RxQueue.len_add_one_toNat h
  exact if_neg (show ¬16 < (q.len + 1).toNat by omega)

/-- A push into a full queue overwrites the oldest entry and counts it (42_receive_queue R191). -/
theorem RxQueue.push_of_full {q : RxQueue} (h : q.Inv) (hl : q.len.toNat = 16) (e : ReceivedFrame) :
    q.push e =
      { buf := q.buf.set q.head.toNat e q.head.isLt, head := ringInc q.head, tail := ringInc q.tail, len := 16
        ovf := satInc q.ovf } := by
  have hlen := RxQueue.len_add_one_toNat h
  exact if_pos (show 16 < (q.len + 1).toNat by omega)

/-- A pop of a non-empty queue takes one from the length. -/
theorem RxQueue.popped_len_toNat {q : RxQueue} (h : q.len ≠ 0) : q.popped.len.toNat = q.len.toNat - 1 := by
  have hpos : q.len.toNat ≠ 0 := fun e => h (BitVec.eq_of_toNat_eq e)
  show (q.len - 1).toNat = _
  bv_omega

theorem RxQueue.push_inv {q : RxQueue} (h : q.Inv) (e : ReceivedFrame) : (q.push e).Inv := by
  have hlen := RxQueue.len_add_one_toNat h
  obtain ⟨hle, hhead⟩ := h
  rcases Nat.lt_or_eq_of_le hle with hlt | hfull
  · rw [RxQueue.push_of_lt ⟨hle, hhead⟩ hlt]
    refine ⟨show (q.len + 1).toNat ≤ 16 by omega, ?_⟩
    simp only [ringInc_toNat, hlen]
    omega
  · rw [RxQueue.push_of_full ⟨hle, hhead⟩ hfull]
    refine ⟨Nat.le_refl 16, ?_⟩
    show (ringInc q.head).toNat = ((ringInc q.tail).toNat + 16) % 16
    simp only [ringInc_toNat]
    omega

theorem RxQueue.popped_inv {q : RxQueue} (h : q.Inv) (hne : q.len ≠ 0) : q.popped.Inv := by
  have hlen := RxQueue.popped_len_toNat hne
  have hpos : q.len.toNat ≠ 0 := fun e => hne (BitVec.eq_of_toNat_eq e)
  obtain ⟨hle, hhead⟩ := h
  refine ⟨by omega, ?_⟩
  rw [hlen]
  show q.head.toNat = ((ringInc q.tail).toNat + _) % 16
  rw [ringInc_toNat]
  omega

theorem RxQueue.cleared_inv (q : RxQueue) : q.cleared.Inv := ⟨Nat.zero_le 16, rfl⟩

/-! ### The contents of the queue -/

@[simp] theorem RxQueue.length_contents (q : RxQueue) : q.contents.length = q.len.toNat := by
  simp [RxQueue.contents]

@[simp] theorem RxQueue.getElem_contents (q : RxQueue) (k : Nat) (h : k < q.contents.length) :
    q.contents[k] = q.buf[(q.tail.toNat + k) % 16]'(Nat.mod_lt _ (by decide)) := by
  simp [RxQueue.contents]

theorem RxQueue.cleared_contents (q : RxQueue) : q.cleared.contents = [] := rfl

theorem RxQueue.contents_push_of_lt {q : RxQueue} (h : q.Inv) (hl : q.len.toNat < 16) (e : ReceivedFrame) :
    (q.push e).contents = q.contents ++ [e] := by
  have hlen := RxQueue.len_add_one_toNat h
  obtain ⟨hle, hhead⟩ := h
  rw [RxQueue.push_of_lt ⟨hle, hhead⟩ hl]
  refine List.ext_getElem
    (by simp only [RxQueue.length_contents, hlen, List.length_append, List.length_singleton]) fun k hk _ => ?_
  have hk' : k < q.len.toNat + 1 := by simpa only [RxQueue.length_contents, hlen] using hk
  rcases Nat.lt_succ_iff_lt_or_eq.mp hk' with hlt | rfl
  · have hne : q.head.toNat ≠ (q.tail.toNat + k) % 16 := by omega
    simp [List.getElem_append_left, hlt, Vector.getElem_set_ne, hne]
  · simp [hhead]

theorem RxQueue.contents_push_of_full {q : RxQueue} (h : q.Inv) (hl : q.len.toNat = 16) (e : ReceivedFrame) :
    (q.push e).contents = q.contents.tail ++ [e] := by
  obtain ⟨hle, hhead⟩ := h
  rw [RxQueue.push_of_full ⟨hle, hhead⟩ hl]
  refine List.ext_getElem (by simp [hl]) fun k hk _ => ?_
  have hk' : k < 16 := by simpa using hk
  have hidx : ((q.tail.toNat + 1) % 16 + k) % 16 = (q.tail.toNat + (k + 1)) % 16 := by omega
  rcases Nat.lt_succ_iff_lt_or_eq.mp hk' with hlt | rfl
  · have hne : q.head.toNat ≠ (q.tail.toNat + (k + 1)) % 16 := by omega
    simp [List.getElem_append_left, hl, hlt, ringInc_toNat, hidx, Vector.getElem_set_ne, hne]
  · have heq : q.head.toNat = ((q.tail.toNat + 1) % 16 + 15) % 16 := by omega
    simp [hl, ringInc_toNat, ← heq]

theorem RxQueue.contents_eq_oldest_cons {q : RxQueue} (hne : q.len ≠ 0) :
    q.contents = q.oldest :: q.popped.contents := by
  have hlen := RxQueue.popped_len_toNat hne
  have hpos : q.len.toNat ≠ 0 := fun e => hne (BitVec.eq_of_toNat_eq e)
  refine List.ext_getElem (by simp [hlen]; omega) fun k hk _ => ?_
  cases k with
  | zero => simp [RxQueue.oldest, Nat.mod_eq_of_lt q.tail.isLt]
  | succ k =>
    have hidx : (q.popped.tail.toNat + k) % 16 = (q.tail.toNat + (k + 1)) % 16 := by
      show ((ringInc q.tail).toNat + k) % 16 = _
      rw [ringInc_toNat]
      omega
    simp only [RxQueue.getElem_contents, List.getElem_cons_succ, hidx]
    rfl

/-- Settles O22: the ring's operations are the list's, by the length below the capacity or at it. -/
theorem ringRefinesList : Obligations.RingRefinesList := by
  intro q e h
  refine ⟨q.length_contents, RxQueue.push_inv h e, fun hl => ?_, fun hl => ?_, fun hne => ?_, q.cleared_inv,
    q.cleared_contents⟩
  · rw [q.length_contents] at hl
    exact ⟨RxQueue.contents_push_of_lt h hl e, by rw [RxQueue.push_of_lt h hl]⟩
  · exact RxQueue.contents_push_of_full h (q.length_contents ▸ hl) e
  · have hlen : q.len ≠ 0 := fun h0 => hne (List.eq_nil_of_length_eq_zero (by simp [h0]))
    exact ⟨RxQueue.popped_inv h hlen, RxQueue.contents_eq_oldest_cons hlen⟩

end Sys2Proof.Machine

/-! SUPPORT. Everything an operation can do: to Driver State, to the lock and its thread's sequence, to the rest. -/

namespace Sys2Proof.Machine

open Host (Outcome)

/-! ### What handlers do to Driver State -/

/-- What interrupt context can make of Driver State: pushes, counted overflows, slots no longer pending, and changes of
the counters, the latches and the flags (43_event_handlers R212, R215, R220, R225). -/
inductive Driver.Handled (d : Driver) : Driver → Prop
  | refl : Handled d d
  | push {x : Driver} (free : Word) (e : ReceivedFrame) (h : Handled d x) : Handled d (x.push free e)
  | clearPending {x : Driver} (i : Fin 3) (h : Handled d x) : Handled d (x.clearPending i)
  | countOverflow {x : Driver} (b : Bool) (h : Handled d x) : Handled d (x.countOverflow b)
  | note {x y : Driver} (h : Handled d x) (hq : y.rxq = x.rxq) (hs : y.slots = x.slots) (hp : y.peakMb = x.peakMb) :
      Handled d y

namespace Driver.Handled
variable {d x : Driver}

theorem countTx (free : Word) (ok : Bool) (h : d.Handled x) : d.Handled (x.countTx free ok) := by
  cases ok
  · exact h
  · exact h.note rfl rfl rfl

theorem report (free : Word) (i : Fin 3) (failed : Bool) (ts : Tick) (h : d.Handled x) :
    d.Handled (x.report free i failed ts) := by
  unfold Driver.report
  split
  · exact h.push _ _
  · exact h

theorem abortSlot (free : Word) (ts : Tick) (i : Fin 3) (h : d.Handled x) : d.Handled (x.abortSlot free ts i) :=
  (h.report _ _ _ _).clearPending i

theorem recordError (free : Word) (lec : BitVec 4) (h : d.Handled x) : d.Handled (x.recordError free lec) := by
  unfold Driver.recordError
  split
  · exact h.note rfl rfl rfl
  · exact h

theorem txComplete (free : Word) (i : Fin 3) (ok : Bool) (ts : Tick) (h : d.Handled x) :
    d.Handled (x.txComplete free i ok ts) :=
  (((h.countTx free ok).report free i (!ok) ts).clearPending i).note rfl rfl rfl

theorem rxAvailable (free : Word) (ovf : Bool) (m : RxMsg) (t : Tick) (h : d.Handled x) :
    d.Handled (x.rxAvailable free ovf m t) :=
  (h.countOverflow ovf).push _ _

theorem busOff (free : Word) (ts : Tick) (h : d.Handled x) : d.Handled (x.busOff free ts) := by
  have hev : d.Handled { x with txEv := true } := h.note rfl rfl rfl
  exact ((hev.abortSlot _ _ _).abortSlot _ _ _).abortSlot _ _ _

end Driver.Handled

/-! ### What an operation does to Driver State -/

/-- Everything an operation `i` can make of Driver State. -/
inductive DriverEffect (i : Instr) (s : State) : Driver → Prop
  | keeps : DriverEffect i s s.drv
  | clearsActivity : DriverEffect i s { s.drv with activity := false }
  | clearsTxEv : DriverEffect i s { s.drv with txEv := false }
  | clearsRxEv : DriverEffect i s { s.drv with rxEv := false }
  | loads (k : Fin 3) {f : Frame} (hf : f.unsupported = false) : DriverEffect i s (loadSlot k f s).drv
  | pops (h : s.drv.rxq.len ≠ 0) : DriverEffect i s { s.drv with rxq := s.drv.rxq.popped }
  | empties (h : i = .qreset) : DriverEffect i s { s.drv with rxq := s.drv.rxq.cleared }
  | handles {d : Driver} (ha : s.agent = .interrupt) (h : s.drv.Handled d) : DriverEffect i s d
  | discards (h : i = .start ∨ i = .stop) : DriverEffect i s Driver.absent
  | constructs (h : i = .start) (n : Nat) (loopback : Bool) : DriverEffect i s (Driver.fresh n loopback)

/-! ### What an operation does to the rest of the state -/

/-- The operand registers, the clock, the interrupt entry and the agents' moves are as they were. -/
abbrev State.SameInputs (s t : State) : Prop :=
  t.ops = s.ops ∧ t.now = s.now ∧ t.irq = s.irq ∧ t.sched = s.sched ∧ t.agent = s.agent ∧ t.wake = s.wake

/-- The other context's copy of the result registers is as it was (10_state R23). -/
abbrev State.SameOtherResults (s t : State) : Prop :=
  (s.agent = .interrupt → t.resT = s.resT) ∧ (s.agent ≠ .interrupt → t.resI = s.resI)

theorem State.SameOtherResults.setRes {s t : State} (h : s.SameOtherResults t) (ha : t.agent = s.agent)
    (r : ResultRegs) : s.SameOtherResults (t.setRes r) := by
  obtain ⟨hT, hI⟩ := h
  cases hs : s.agent with
  | thread u => simp [State.SameOtherResults, hs, ha, hI (by simp [hs])]
  | interrupt => simp [State.SameOtherResults, hs, ha, hT hs]

/-- From `s` to `t` the issuing agent's work apart from the lock and its sequence is done: the session, Driver State,
CTRL, the draw counter and its own results alone may have changed. -/
structure OpBody (i : Instr) (s t : State) : Prop where
  inputs : s.SameInputs t
  results : s.SameOtherResults t
  mtx : t.mtx = s.mtx
  seqs : t.seqs = s.seqs
  drv : DriverEffect i s t.drv

namespace OpBody
variable {i : Instr} {s t : State}

theorem refl : OpBody i s s :=
  ⟨⟨rfl, rfl, rfl, rfl, rfl, rfl⟩, ⟨fun _ => rfl, fun _ => rfl⟩, rfl, rfl, .keeps⟩

/-- The session, Driver State, CTRL and the draw counter may be replaced. -/
theorem update (b : OpBody i s t) {d : Driver} (hd : DriverEffect i s d) (sess : Session) (hw : Bool) (c : Ctrl)
    (n : Nat) : OpBody i s { t with drv := d, sess := sess, hwEnabled := hw, ctrl := c, freeIdx := n } :=
  ⟨b.inputs, b.results, b.mtx, b.seqs, hd⟩

theorem agent (b : OpBody i s t) : t.agent = s.agent := by
  obtain ⟨-, -, -, -, ha, -⟩ := b.inputs
  exact ha

theorem setRes (b : OpBody i s t) (r : ResultRegs) : OpBody i s (t.setRes r) :=
  ⟨b.inputs, b.results.setRes b.agent r, b.mtx, b.seqs, b.drv⟩

theorem setStatus (b : OpBody i s t) (c : Byte) : OpBody i s (t.setStatus c) := b.setRes _

theorem drawn (b : OpBody i s t) : OpBody i s t.drawn := b.update b.drv _ _ _ _

theorem command (b : OpBody i s t) (f : Ctrl → Ctrl) : OpBody i s (t.command f) := b.update b.drv _ _ _ _

theorem enableOnce (b : OpBody i s t) : OpBody i s t.enableOnce := by
  unfold State.enableOnce
  split
  · exact b
  · exact b.update b.drv _ _ _ _

theorem discardDriver (b : OpBody i s t) (h : i = .start ∨ i = .stop) : OpBody i s t.discardDriver :=
  b.update (.discards h) _ _ _ _

end OpBody

theorem loadMailbox_body {i : Instr} (f : Frame) (s : State) : OpBody i s (loadMailbox f s).2 := by
  rcases loadMailbox_cases f s with ⟨-, h⟩ | ⟨-, -, h⟩ | ⟨hf, k, -, h⟩ <;> rw [h]
  · exact .refl
  · exact .refl
  · exact OpBody.refl.update (.loads k hf) _ _ _ _

theorem statusChange_body {s : State} (i : Instr) (ha : s.agent = .interrupt) : OpBody i s (statusChange s) := by
  unfold statusChange
  dsimp only
  split
  · exact OpBody.refl.update (.handles ha ((Driver.Handled.refl.busOff _ _).recordError _ _)) _ _ _ _
  · exact OpBody.refl.update (.handles ha (Driver.Handled.refl.recordError _ _)) _ _ _ _

/-! ### Everything an operation does -/

/-- Everything an operation can do: its work alone, or its work and one move of its thread's sequence. -/
inductive OpEffect (i : Instr) (s : State) : State → Prop
  | done {t : State} (b : OpBody i s t) : OpEffect i s t
  | begins {u : Nat} {q : Seq} (ha : s.agent = .thread u) (hc : s.curSeq = none) (hq : q.holdsLock = false) :
      OpEffect i s (s.putSeq q)
  | acquires {u : Nat} {q₀ q : Seq} (ha : s.agent = .thread u) (hc : s.curSeq = some q₀) (hm : s.mtx = none)
      (hq : q.holdsLock = true) : OpEffect i s { s with mtx := some u, seqs := seqPut u q s.seqs }
  | goesOn {q₀ q : Seq} {t : State} (hc : s.curSeq = some q₀) (h₀ : q₀.holdsLock = true) (hq : q.holdsLock = true)
      (b : OpBody i s t) : OpEffect i s (t.putSeq q)
  | returns {q₀ : Seq} {t : State} {c : Byte} (hc : s.curSeq = some q₀) (h₀ : q₀.holdsLock = true)
      (b : OpBody i s t) : OpEffect i s (t.returnWith c)
  | waitEnds {q₀ : Seq} {t : State} {c : Byte} (hc : s.curSeq = some q₀) (h₀ : q₀.holdsLock = false)
      (b : OpBody i s t) : OpEffect i s (t.dropSeq.setStatus c)

theorem State.agent_of_curSeq {s : State} {q : Seq} (h : s.curSeq = some q) : ∃ u, s.agent = .thread u := by
  cases ha : s.agent with
  | thread u => exact ⟨u, rfl⟩
  | interrupt => rw [State.curSeq_interrupt ha] at h; cases h

theorem State.ne_interrupt_of_curSeq {s : State} {q : Seq} (h : s.curSeq = some q) : s.agent ≠ .interrupt := by
  obtain ⟨u, ha⟩ := State.agent_of_curSeq h
  simp [ha]

section effects
variable {i : Instr} {s t : State}

theorem raiseFault_effect {f : OpFault} (h : raiseFault f s = .next t) : OpEffect i s t := by
  cases h
  exact .done (OpBody.refl.setStatus _)

/-- The checks before an operation add only faults to what its rule can do. -/
theorem guardOp_effect {k : Outcome State Fault Refusal} (h : guardOp i s k = .next t)
    (hk : admits (opContext i) s.agent = true → k = .next t → OpEffect i s t) : OpEffect i s t := by
  rcases guardOp_cases i s k with ⟨-, e⟩ | ⟨-, -, -, e⟩ | ⟨ha, -, e⟩
  · exact raiseFault_effect (e ▸ h)
  · exact raiseFault_effect (e ▸ h)
  · exact hk ha (e ▸ h)

/-- An operation whose rule is one next state. -/
theorem guardOp_next_effect {t' : State} (h : guardOp i s (.next t') = .next t)
    (b : admits (opContext i) s.agent = true → OpBody i s t') : OpEffect i s t :=
  guardOp_effect h fun ha hk => by cases hk; exact .done (b ha)

theorem acquire_effect {q₀ q : Seq} (hc : s.curSeq = some q₀) (hq : q.holdsLock = true) :
    OpEffect i s (s.acquire q) := by
  obtain ⟨u, ha⟩ := State.agent_of_curSeq hc
  rw [State.acquire_eq ha]
  split
  · next hm => exact .acquires ha hc hm hq
  · exact .done .refl

/-- A sequence is noted at its issue by a thread. -/
theorem putSeq_effect {q : Seq} (ha : admits .thread s.agent = true) (hc : s.curSeq = none)
    (hq : q.holdsLock = false) : OpEffect i s (s.putSeq q) := by
  cases hs : s.agent with
  | thread u => exact .begins hs hc hq
  | interrupt => rw [hs] at ha; cases ha

/-! ### One lemma a sequence -/

theorem startMove_effect {clk rate : Word} {opt : StartOpts} {p : StartPos}
    (hc : s.curSeq = some (.start p clk rate opt)) : OpEffect .start s (startMove clk rate opt p s) := by
  cases p with
  | acquire => exact acquire_effect hc rfl
  | hwEnable => exact .goesOn hc rfl rfl OpBody.refl.enableOnce
  | irqOff => exact .goesOn hc rfl rfl (OpBody.refl.command _)
  | sessStop => exact .goesOn hc rfl rfl (OpBody.refl.discardDriver (.inl rfl))
  | reqInit => exact .goesOn hc rfl rfl (OpBody.refl.command _)
  | pollEnter n =>
    unfold startMove
    dsimp only
    split
    · exact .goesOn hc rfl rfl .refl
    · exact .goesOn hc rfl rfl .refl
    · exact .returns hc rfl .refl
  | construct => exact .goesOn hc rfl rfl (OpBody.refl.update (.constructs rfl _ _) _ _ _ _)
  | tcalc => exact .goesOn hc rfl rfl (OpBody.refl.setRes _).drawn
  | checkTim r =>
    cases r with
    | ok tim => exact .goesOn hc rfl rfl .refl
    | invalidBitRate => exact .returns hc rfl (OpBody.refl.discardDriver (.inl rfl))
    | logic => exact .returns hc rfl (OpBody.refl.discardDriver (.inl rfl))
  | setTiming tim => exact .goesOn hc rfl rfl (OpBody.refl.command _)
  | sessRun => exact .goesOn hc rfl rfl (OpBody.refl.update .keeps _ _ _ _)
  | irqOn => exact .goesOn hc rfl rfl (OpBody.refl.command _)
  | reqExit => exact .goesOn hc rfl rfl (OpBody.refl.command _)
  | pollExit n =>
    unfold startMove
    dsimp only
    split
    · exact .goesOn hc rfl rfl .refl
    · exact .goesOn hc rfl rfl .refl
    · exact .goesOn hc rfl rfl .refl
  | failExit => exact .goesOn hc rfl rfl (OpBody.refl.command _)
  | failStop => exact .goesOn hc rfl rfl (OpBody.refl.discardDriver (.inl rfl))
  | failReturn => exact .returns hc rfl .refl
  | filter => exact .goesOn hc rfl rfl (OpBody.refl.command _)
  | finish => exact .returns hc rfl .refl

theorem stopMove_effect {p : StopPos} (hc : s.curSeq = some (.stop p)) : OpEffect .stop s (stopMove p s) := by
  cases p with
  | acquire => exact acquire_effect hc rfl
  | irqOff => exact .goesOn hc rfl rfl (OpBody.refl.command _)
  | sessStop => exact .goesOn hc rfl rfl (OpBody.refl.discardDriver (.inr rfl))
  | lowPower => exact .goesOn hc rfl rfl (OpBody.refl.command _)
  | clearIrq => exact .goesOn hc rfl rfl (OpBody.refl.command _)
  | finish => exact .returns hc rfl .refl

theorem sendMove_effect {f : Frame} {timeout : Tick} {p : SendPos} (hc : s.curSeq = some (.send p f timeout)) :
    OpEffect .send s (sendMove f timeout p s) := by
  cases p with
  | acquire => exact acquire_effect hc rfl
  | checkRunning =>
    unfold sendMove
    dsimp only
    split
    · exact .goesOn hc rfl rfl .refl
    · exact .returns hc rfl .refl
  | entry => exact .goesOn hc rfl rfl .refl
  | canacc t0 =>
    unfold sendMove
    dsimp only
    split
    · exact .goesOn hc rfl rfl .refl
    · exact .goesOn hc rfl rfl .refl
  | mbload t0 => exact .goesOn hc rfl rfl (loadMailbox_body f s)
  | loaded t0 r =>
    unfold sendMove
    dsimp only
    split
    · exact .returns hc rfl .refl
    · split
      · exact .returns hc rfl .refl
      · exact .goesOn hc rfl rfl .refl
  | tail t0 q =>
    unfold sendMove
    dsimp only
    split
    · exact .done .refl
    · exact .returns hc rfl .refl
    · exact .goesOn hc rfl rfl .refl
    · exact .goesOn hc rfl rfl (OpBody.refl.update .clearsTxEv _ _ _ _)
    · exact .goesOn hc rfl rfl .refl

theorem receiveMove_effect {timeout : Tick} {p : RecvPos} (hc : s.curSeq = some (.receive p timeout)) :
    OpEffect .receive s (receiveMove timeout p s) := by
  cases p with
  | acquire => exact acquire_effect hc rfl
  | checkRunning =>
    unfold receiveMove
    dsimp only
    split
    · exact .goesOn hc rfl rfl .refl
    · exact .returns hc rfl .refl
  | entry => exact .goesOn hc rfl rfl .refl
  | tryPop t0 =>
    unfold receiveMove
    dsimp only
    split
    · exact .goesOn hc rfl rfl .refl
    · next hlen => exact .returns hc rfl ((OpBody.refl.setRes _).update (.pops hlen) _ _ _ _)
  | tail t0 q =>
    unfold receiveMove
    dsimp only
    split
    · exact .done .refl
    · exact .returns hc rfl (OpBody.refl.setRes _).drawn
    · exact .goesOn hc rfl rfl .refl
    · exact .goesOn hc rfl rfl (OpBody.refl.update .clearsRxEv _ _ _ _)
    · exact .goesOn hc rfl rfl .refl

theorem waitTxMove_effect {ti budget : Tick} (hc : s.curSeq = some (.waitTx ti budget)) :
    OpEffect .waittx s (waitTxMove ti budget s) := by
  unfold waitTxMove
  split
  · exact .done .refl
  · exact .waitEnds hc rfl (OpBody.refl.update .clearsTxEv _ _ _ _)
  · exact .waitEnds hc rfl .refl
  · exact .waitEnds hc rfl .refl

theorem waitRxMove_effect {ti budget : Tick} (hc : s.curSeq = some (.waitRx ti budget)) :
    OpEffect .waitrx s (waitRxMove ti budget s) := by
  unfold waitRxMove
  split
  · exact .done .refl
  · exact .waitEnds hc rfl (OpBody.refl.update .clearsRxEv _ _ _ _)
  · exact .waitEnds hc rfl .refl
  · exact .waitEnds hc rfl .refl

/-! ### One lemma an operation with several outcomes -/

theorem execQpop_effect (h : execQpop s = .next t) : OpEffect .qpop s t := by
  refine guardOp_effect h fun _ hk => ?_
  split at hk
  · exact raiseFault_effect hk
  · next hlen =>
    cases hk
    exact .done (((OpBody.refl.setRes _).update (.pops hlen) _ _ _ _).setStatus _)

theorem execEvtxc_effect {idx : BitVec 2} {ok : Bool} (h : execEvtxc idx ok s = .next t) :
    OpEffect (.evtxc idx ok) s t := by
  refine guardOp_effect h fun ha hk => ?_
  split at hk
  · exact raiseFault_effect hk
  · cases hk
    have hI := (admits_interrupt_iff _).mp ha
    exact .done ((OpBody.refl.update (.handles hI (Driver.Handled.refl.txComplete _ _ _ _)) _ _ _ _).setStatus _)

theorem execEvrxa_effect {idx : BitVec 2} (h : execEvrxa idx s = .next t) : OpEffect (.evrxa idx) s t := by
  refine guardOp_effect h fun ha hk => ?_
  split at hk
  · exact raiseFault_effect hk
  · split at hk
    · exact raiseFault_effect hk
    · split at hk
      · exact raiseFault_effect hk
      · cases hk
        have hI := (admits_interrupt_iff _).mp ha
        exact .done ((OpBody.refl.update (.handles hI (Driver.Handled.refl.rxAvailable _ _ _ _)) _ _ _ _).setStatus _)

theorem execStart_effect (h : execStart s = .next t) : OpEffect .start s t := by
  refine guardOp_effect h fun ha hk => ?_
  split at hk
  · next hc => cases hk; exact putSeq_effect ha hc rfl
  · next hc => cases hk; exact startMove_effect hc
  · cases hk

theorem execStop_effect (h : execStop s = .next t) : OpEffect .stop s t := by
  refine guardOp_effect h fun ha hk => ?_
  split at hk
  · next hc => cases hk; exact putSeq_effect ha hc rfl
  · next hc => cases hk; exact stopMove_effect hc
  · cases hk

theorem execSend_effect (h : execSend s = .next t) : OpEffect .send s t := by
  unfold execSend at h
  split at h
  · next hc => exact guardOp_effect h fun ha hk => by cases hk; exact putSeq_effect ha hc rfl
  · next hc => cases h; exact sendMove_effect hc
  · cases h

theorem execReceive_effect (h : execReceive s = .next t) : OpEffect .receive s t := by
  unfold execReceive at h
  split at h
  · next hc => exact guardOp_effect h fun ha hk => by cases hk; exact putSeq_effect ha hc rfl
  · next hc => cases h; exact receiveMove_effect hc
  · cases h

theorem execWaittx_effect (h : execWaittx s = .next t) : OpEffect .waittx s t := by
  unfold execWaittx at h
  split at h
  · exact raiseFault_effect h
  · split at h
    · next hc => cases h; exact waitTxMove_effect hc
    · cases h
    · next hc => exact guardOp_effect h fun ha hk => by cases hk; exact putSeq_effect ha hc rfl

theorem execWaitrx_effect (h : execWaitrx s = .next t) : OpEffect .waitrx s t := by
  unfold execWaitrx at h
  split at h
  · exact raiseFault_effect h
  · split at h
    · next hc => cases h; exact waitRxMove_effect hc
    · cases h
    · next hc => exact guardOp_effect h fun ha hk => by cases hk; exact putSeq_effect ha hc rfl

/-! ### All operations -/

/-- Everything `exec` can do, whatever the instruction. -/
theorem exec_effect (h : exec i s = .next t) : OpEffect i s t := by
  cases i with
  | tcalc => exact guardOp_next_effect h fun _ => (OpBody.refl.setRes _).drawn
  | pricmp => exact guardOp_next_effect h fun _ => OpBody.refl.setRes _
  | canacc => exact guardOp_next_effect h fun _ => OpBody.refl.setRes _
  | mbload => exact guardOp_next_effect h fun _ => (loadMailbox_body _ s).setStatus _
  | qpush =>
    exact guardOp_next_effect h fun ha => (OpBody.refl.update
      (.handles ((admits_interrupt_iff _).mp ha) (Driver.Handled.refl.push _ _)) _ _ _ _).setStatus _
  | qpop => exact execQpop_effect h
  | qreset => exact guardOp_next_effect h fun _ => (OpBody.refl.update (.empties rfl) _ _ _ _).setStatus _
  | qlen => exact guardOp_next_effect h fun _ => OpBody.refl.setRes _
  | evtxc idx ok => exact execEvtxc_effect h
  | evrxa idx => exact execEvrxa_effect h
  | evsts =>
    exact guardOp_next_effect h fun ha => (statusChange_body _ ((admits_interrupt_iff _).mp ha)).drawn.setStatus _
  | start => exact execStart_effect h
  | stop => exact execStop_effect h
  | send => exact execSend_effect h
  | receive => exact execReceive_effect h
  | waittx => exact execWaittx_effect h
  | waitrx => exact execWaitrx_effect h
  | rderr => exact guardOp_next_effect h fun _ => OpBody.refl.setRes _
  | rdovf => exact guardOp_next_effect h fun _ => OpBody.refl.setRes _
  | rdtxc => exact guardOp_next_effect h fun _ => OpBody.refl.setRes _
  | rdrxc => exact guardOp_next_effect h fun _ => OpBody.refl.setRes _
  | rdlec => exact guardOp_next_effect h fun _ => OpBody.refl.setRes _
  | rdpeak => exact guardOp_next_effect h fun _ => OpBody.refl.setRes _
  | rdact => exact guardOp_next_effect h fun _ => (OpBody.refl.update .clearsActivity _ _ _ _).setRes _

end effects

end Sys2Proof.Machine

/-! SUPPORT. What every operation keeps, from what it can do. -/

namespace Sys2Proof.Machine

/-! ### What every operation keeps -/

namespace OpEffect
variable {i : Instr} {s t : State}

theorem sameInputs (h : OpEffect i s t) : s.SameInputs t := by
  cases h with
  | done b => exact b.inputs
  | begins => exact OpBody.refl (i := i).inputs
  | acquires => exact OpBody.refl (i := i).inputs
  | goesOn _ _ _ b => exact b.inputs
  | returns _ _ b => exact b.inputs
  | waitEnds _ _ b => exact b.inputs

theorem sameOtherResults (h : OpEffect i s t) : s.SameOtherResults t := by
  cases h with
  | done b => exact b.results
  | begins => exact OpBody.refl (i := i).results
  | acquires => exact OpBody.refl (i := i).results
  | goesOn _ _ _ b => exact b.results
  | returns _ _ b => exact (b.setStatus _).results
  | waitEnds _ _ b => exact (b.setStatus _).results

theorem driver (h : OpEffect i s t) : DriverEffect i s t.drv := by
  cases h with
  | done b => exact b.drv
  | begins => exact .keeps
  | acquires => exact .keeps
  | goesOn _ _ _ b => exact b.drv
  | returns _ _ b => exact b.drv
  | waitEnds _ _ b => exact b.drv

/-- Interrupt context has no sequence and takes no lock (60_exceptions R295). -/
theorem sameLock_of_interrupt (h : OpEffect i s t) (hs : s.agent = .interrupt) : t.mtx = s.mtx ∧ t.seqs = s.seqs := by
  cases h with
  | done b => exact ⟨b.mtx, b.seqs⟩
  | begins ha => rw [hs] at ha; cases ha
  | acquires ha => rw [hs] at ha; cases ha
  | goesOn hc => exact absurd hs (State.ne_interrupt_of_curSeq hc)
  | returns hc => exact absurd hs (State.ne_interrupt_of_curSeq hc)
  | waitEnds hc => exact absurd hs (State.ne_interrupt_of_curSeq hc)

end OpEffect

/-- Settles O44: no outcome of an operation touches the inputs. -/
theorem operationsKeepInputs : Obligations.OperationsKeepInputs :=
  fun _ _ _ h => (exec_effect h).sameInputs

/-- Settles O45: each context writes its own results, and interrupt context neither the lock nor a sequence. -/
theorem contextsAreSeparate : Obligations.ContextsAreSeparate := by
  intro i s t h
  have he := exec_effect h
  obtain ⟨hT, hI⟩ := he.sameOtherResults
  exact ⟨fun hs => ⟨hT hs, he.sameLock_of_interrupt hs⟩, hI⟩

/-! ### Rules about the parts of Driver State -/

theorem le_satInc (v : Word) : v.toNat ≤ (satInc v).toNat := by
  have := v.isLt
  rw [satInc_toNat]
  omega

theorem RxQueue.ovf_le_push (q : RxQueue) (e : ReceivedFrame) : q.ovf.toNat ≤ (q.push e).ovf.toNat := by
  unfold RxQueue.push
  dsimp only
  split
  · exact le_satInc q.ovf
  · exact Nat.le_refl _

theorem Driver.clearPending_slot (i j : Fin 3) (d : Driver) :
    (d.clearPending i).slots[j] = if j = i then { d.slots[i] with pending := false } else d.slots[j] := by
  simp [Driver.clearPending, Vector.getElem_set, Fin.ext_iff, eq_comm]

theorem loadSlot_slot (k j : Fin 3) (f : Frame) (s : State) :
    (loadSlot k f s).drv.slots[j] = if j = k then ⟨true, f⟩ else s.drv.slots[j] := by
  simp [loadSlot, Vector.getElem_set, Fin.ext_iff, eq_comm]

/-- The statistic names a slot, so it stays a slot's number (10_state R34). -/
theorem loadSlot_peakMb_le {k : Fin 3} {f : Frame} {s : State} (h : s.drv.peakMb.toNat ≤ 2) :
    (loadSlot k f s).drv.peakMb.toNat ≤ 2 := by
  unfold loadSlot
  dsimp only
  split
  · rw [BitVec.toNat_ofNat]
    omega
  · exact h

@[simp] theorem Driver.countOverflow_slots (b : Bool) (d : Driver) : (d.countOverflow b).slots = d.slots := by
  cases b <;> rfl

@[simp] theorem Driver.countOverflow_peakMb (b : Bool) (d : Driver) : (d.countOverflow b).peakMb = d.peakMb := by
  cases b <;> rfl

theorem Driver.countOverflow_inv {b : Bool} {d : Driver} (h : d.rxq.Inv) : (d.countOverflow b).rxq.Inv := by
  cases b
  · exact h
  · exact h

theorem Driver.ovf_le_countOverflow (b : Bool) (d : Driver) :
    d.rxq.ovf.toNat ≤ (d.countOverflow b).rxq.ovf.toNat := by
  cases b
  · exact Nat.le_refl _
  · exact le_satInc d.rxq.ovf

theorem Driver.fresh_slot (n : Nat) (b : Bool) (i : Fin 3) :
    (Driver.fresh n b).slots[i] = ⟨false, Config.freeSlotFrame n i.val⟩ := by
  simp [Driver.fresh]

theorem Driver.absent_slot (i : Fin 3) : Driver.absent.slots[i] = ⟨false, zeroFrame⟩ := by
  simp [Driver.absent]

/-! ### What the handlers keep -/

namespace Driver.Handled
variable {d x : Driver}

theorem ovf_le (h : d.Handled x) : d.rxq.ovf.toNat ≤ x.rxq.ovf.toNat := by
  induction h with
  | refl => exact Nat.le_refl _
  | push free e _ ih => exact Nat.le_trans ih (by simpa using RxQueue.ovf_le_push _ e)
  | clearPending i _ ih => exact ih
  | countOverflow b _ ih => exact Nat.le_trans ih (Driver.ovf_le_countOverflow b _)
  | note _ hq _ _ ih => rw [hq]; exact ih

theorem rangeInv (h : d.Handled x) (hd : d.RangeInv) : x.RangeInv := by
  induction h with
  | refl => exact hd
  | push free e _ ih => exact ⟨by simpa using RxQueue.push_inv ih.1 e, by simpa using ih.2⟩
  | clearPending i _ ih => exact ih
  | countOverflow b _ ih => exact ⟨Driver.countOverflow_inv ih.1, by simpa using ih.2⟩
  | note _ hq _ hp ih => simpa [Driver.RangeInv, hq, hp] using ih

theorem shapeInv (h : d.Handled x) (hd : d.ShapeInv) : x.ShapeInv := by
  induction h with
  | refl => exact hd
  | push free e _ ih => simpa [Driver.ShapeInv] using ih
  | clearPending i _ ih =>
    intro j
    rw [Driver.clearPending_slot]
    split
    · intro hp; cases hp
    · exact ih j
  | countOverflow b _ ih => simpa [Driver.ShapeInv] using ih
  | note _ _ hs _ ih => simpa [Driver.ShapeInv, hs] using ih

end Driver.Handled

/-! ### What every operation keeps of Driver State -/

namespace DriverEffect
variable {i : Instr} {s : State} {d : Driver}

theorem rangeInv (h : DriverEffect i s d) (hs : s.drv.RangeInv) : d.RangeInv := by
  cases h with
  | keeps => exact hs
  | clearsActivity => exact hs
  | clearsTxEv => exact hs
  | clearsRxEv => exact hs
  | loads k => exact ⟨hs.1, loadSlot_peakMb_le hs.2⟩
  | pops hlen => exact ⟨RxQueue.popped_inv hs.1 hlen, hs.2⟩
  | empties => exact ⟨RxQueue.cleared_inv _, hs.2⟩
  | handles _ h => exact h.rangeInv hs
  | discards => decide
  | constructs => exact ⟨⟨Nat.zero_le 16, rfl⟩, Nat.zero_le 2⟩

theorem shapeInv (h : DriverEffect i s d) (hs : s.drv.ShapeInv) : d.ShapeInv := by
  cases h with
  | keeps => exact hs
  | clearsActivity => exact hs
  | clearsTxEv => exact hs
  | clearsRxEv => exact hs
  | loads k hf =>
    intro j
    rw [loadSlot_slot]
    split
    · exact fun _ => hf
    · exact hs j
  | pops => exact hs
  | empties => exact hs
  | handles _ h => exact h.shapeInv hs
  | discards =>
    intro j hp
    rw [Driver.absent_slot] at hp
    cases hp
  | constructs _ n b =>
    intro j hp
    rw [Driver.fresh_slot] at hp
    cases hp

/-- Only QRESET, START and STOP lower the overflow counter. -/
theorem ovf_le (h : DriverEffect i s d) (hr : i ≠ .qreset) (h₁ : i ≠ .start) (h₂ : i ≠ .stop) :
    s.drv.rxq.ovf.toNat ≤ d.rxq.ovf.toNat := by
  cases h with
  | keeps => exact Nat.le_refl _
  | clearsActivity => exact Nat.le_refl _
  | clearsTxEv => exact Nat.le_refl _
  | clearsRxEv => exact Nat.le_refl _
  | loads => exact Nat.le_refl _
  | pops => exact Nat.le_refl _
  | empties h => exact absurd h hr
  | handles _ h => exact h.ovf_le
  | discards h => exact (h.elim h₁ h₂).elim
  | constructs h => exact absurd h h₁

/-- In thread context a pending flag falls only when Driver State goes or is constructed. -/
theorem pending_of_thread (h : DriverEffect i s d) (ha : s.agent ≠ .interrupt) (h₁ : i ≠ .start) (h₂ : i ≠ .stop)
    (j : Fin 3) (hp : s.drv.slots[j].pending = true) : d.slots[j].pending = true := by
  cases h with
  | keeps => exact hp
  | clearsActivity => exact hp
  | clearsTxEv => exact hp
  | clearsRxEv => exact hp
  | loads k =>
    rw [loadSlot_slot]
    split
    · rfl
    · exact hp
  | pops => exact hp
  | empties => exact hp
  | handles hI => exact absurd hI ha
  | discards h => exact (h.elim h₁ h₂).elim
  | constructs h => exact absurd h h₁

/-- In thread context a latch is never set. -/
theorem latches_of_thread (h : DriverEffect i s d) (ha : s.agent ≠ .interrupt) :
    (d.txEv = true → s.drv.txEv = true) ∧ (d.rxEv = true → s.drv.rxEv = true) := by
  cases h with
  | keeps => exact ⟨id, id⟩
  | clearsActivity => exact ⟨id, id⟩
  | clearsTxEv => exact ⟨fun h => (by cases h), id⟩
  | clearsRxEv => exact ⟨id, fun h => (by cases h)⟩
  | loads => exact ⟨id, id⟩
  | pops => exact ⟨id, id⟩
  | empties => exact ⟨id, id⟩
  | handles hI => exact absurd hI ha
  | discards => exact ⟨fun h => (by cases h), fun h => (by cases h)⟩
  | constructs => exact ⟨fun h => (by cases h), fun h => (by cases h)⟩

end DriverEffect

/-- Settles O46: what a thread's operation can make of Driver State sets no latch and, within a session, clears no
pending flag. -/
theorem threadsNeverCompleteOrSignal : Obligations.ThreadsNeverCompleteOrSignal := by
  intro i s t ha h
  have he := (exec_effect h).driver
  exact ⟨fun h₁ h₂ => he.pending_of_thread ha h₁ h₂, he.latches_of_thread ha⟩

/-- Settles O48: what else an operation does to the queue never lowers its overflow counter. -/
theorem overflowNeverFalls : Obligations.OverflowNeverFalls :=
  fun _ _ _ hr h₁ h₂ h => (exec_effect h).driver.ovf_le hr h₁ h₂


end Sys2Proof.Machine

/-! SUPPORT. What every step keeps: it runs one operation, or touches neither lock, sequences nor Driver State. -/

namespace Sys2Proof.Machine

/-! ### What a step does -/

/-- The lock, the sequences and Driver State are as they were. -/
structure State.SameCore (s t : State) : Prop where
  mtx : t.mtx = s.mtx
  seqs : t.seqs = s.seqs
  drv : t.drv = s.drv

/-- A step runs one operation, from a state with the same lock, sequences and Driver State, or it keeps these. -/
inductive StepEffect (s t : State) : Prop
  | runs {i : Instr} {s₀ : State} (h : exec i s₀ = .next t) (hs : s.SameCore s₀)
  | keeps (hs : s.SameCore t)

theorem issue_stepEffect {a : Agent} {w : Word} {s t : State} (h : issue a w s = .next t) : StepEffect s t := by
  unfold issue at h
  split at h
  · cases h
    exact .keeps ⟨rfl, rfl, rfl⟩
  · exact .runs h ⟨rfl, rfl, rfl⟩

theorem carryOn_stepEffect {u : Nat} {k : Wake} {s t : State} (h : carryOn u k s = .next t) : StepEffect s t := by
  unfold carryOn at h
  split at h
  · split at h
    · cases h
      exact .keeps ⟨rfl, rfl, rfl⟩
    · exact .runs h ⟨rfl, rfl, rfl⟩
  · cases h
    exact .keeps ⟨rfl, rfl, rfl⟩

theorem serve_stepEffect {c : Cause} {s t : State} (h : serve c s = .next t) : StepEffect s t := by
  unfold serve at h
  split at h
  · cases h
    exact .keeps ⟨rfl, rfl, rfl⟩
  · split at h
    · cases c with
      | txc k => exact .runs h ⟨rfl, rfl, rfl⟩
      | rx k => exact .runs h ⟨rfl, rfl, rfl⟩
      | status => exact .runs h ⟨rfl, rfl, rfl⟩
    · cases h
      exact .keeps ⟨rfl, rfl, rfl⟩

/-- A move of CTRL changes CTRL alone. -/
theorem ctrlMove_eq (m : CtrlMove) (s : State) : ctrlMove m s = { s with ctrl := (ctrlMove m s).ctrl } := by
  cases m with
  | txDone i ok => unfold ctrlMove; dsimp only; split <;> rfl
  | abortDone i flagged => unfold ctrlMove; dsimp only; split <;> rfl
  | rxDeliver k m => rfl
  | rxOverflow k b => rfl
  | busOff b => rfl
  | lec c => rfl
  | errorCond => rfl
  | initAck b => rfl
  | redraw st => unfold ctrlMove; dsimp only; split <;> rfl

theorem irqEnter_sameCore (s : State) : s.SameCore s.irqEnter := by
  unfold State.irqEnter
  split <;> exact ⟨rfl, rfl, rfl⟩

theorem irqLeave_sameCore (s : State) : s.SameCore s.irqLeave := by
  unfold State.irqLeave
  split <;> exact ⟨rfl, rfl, rfl⟩

theorem perform_stepEffect {m : Move} {s t : State} (h : perform m s = .next t) : StepEffect s t := by
  cases m with
  | load a w =>
    unfold perform at h
    dsimp only at h
    split at h <;> cases h <;> exact .keeps ⟨rfl, rfl, rfl⟩
  | cmd a w =>
    unfold perform at h
    dsimp only at h
    split at h
    · exact issue_stepEffect h
    · cases h
      exact .keeps ⟨rfl, rfl, rfl⟩
  | run u k => exact carryOn_stepEffect h
  | ctrl m =>
    cases h
    rw [ctrlMove_eq]
    exact .keeps ⟨rfl, rfl, rfl⟩
  | tick d =>
    cases h
    exact .keeps ⟨rfl, rfl, rfl⟩
  | irqEnter =>
    cases h
    exact .keeps (irqEnter_sameCore s)
  | dispatch c => exact serve_stepEffect h
  | irqLeave =>
    cases h
    exact .keeps (irqLeave_sameCore s)

/-- Everything a step can do to the lock, the sequences and Driver State. -/
theorem step_effect {s t : State} (h : step s = .next t) : StepEffect s t := by
  unfold step at h
  split at h
  · cases h
    exact .keeps ⟨rfl, rfl, rfl⟩
  · cases perform_stepEffect h with
    | runs h hs => exact .runs h ⟨hs.mtx, hs.seqs, hs.drv⟩
    | keeps hs => exact .keeps ⟨hs.mtx, hs.seqs, hs.drv⟩

/-- A property of Driver State that every operation keeps, every step keeps. -/
theorem step_keeps_driver {P : Driver → Prop}
    (hP : ∀ {i : Instr} {s : State} {d : Driver}, DriverEffect i s d → P s.drv → P d)
    {s t : State} (hs : P s.drv) (h : step s = .next t) : P t.drv := by
  cases step_effect h with
  | runs h h₀ => exact hP (exec_effect h).driver (h₀.drv ▸ hs)
  | keeps h₀ => exact h₀.drv ▸ hs

/-- Settles O57: every operation keeps the ranges, and no other move touches Driver State. -/
theorem stepKeepsRanges : Obligations.StepKeepsRanges :=
  fun _ _ => step_keeps_driver DriverEffect.rangeInv

/-- Settles O58: every operation keeps the shapes, and no other move touches Driver State. -/
theorem stepKeepsShapes : Obligations.StepKeepsShapes :=
  fun _ _ => step_keeps_driver DriverEffect.shapeInv

/-! ### The lock -/

/-- Whether thread `t` has a sequence that stands past `acquire(mtx)`. -/
def holdsAt (t : Nat) (l : List (Nat × Seq)) : Bool := (seqGet t l).any Seq.holdsLock

theorem holdsAt_of_seqGet {t : Nat} {q : Seq} {l : List (Nat × Seq)} (h : seqGet t l = some q) :
    holdsAt t l = q.holdsLock := by
  simp [holdsAt, h]

theorem holdsAt_seqPut (t u : Nat) (q : Seq) (l : List (Nat × Seq)) :
    holdsAt t (seqPut u q l) = if t = u then q.holdsLock else holdsAt t l := by
  unfold holdsAt
  split
  · next h => rw [h, seqGet_seqPut_self, Option.any_some]
  · next h => rw [seqGet_seqPut_of_ne h]

theorem holdsAt_seqDrop (t u : Nat) (l : List (Nat × Seq)) :
    holdsAt t (seqDrop u l) = if t = u then false else holdsAt t l := by
  unfold holdsAt
  split
  · next h => rw [h, seqGet_seqDrop_self, Option.any_none]
  · next h => rw [seqGet_seqDrop_of_ne h]

/-- In the canonical form a thread stands past `acquire(mtx)` exactly if its entry does. -/
theorem holdsAt_iff {l : List (Nat × Seq)} (hl : threadsRise l = true) (t : Nat) :
    holdsAt t l = true ↔ ∃ e ∈ l, e.1 = t ∧ e.2.holdsLock = true := by
  constructor
  · intro h
    obtain ⟨q, hq, hh⟩ := (Option.any_eq_true _ _).mp h
    exact ⟨(t, q), seqGet_mem hq, rfl, hh⟩
  · rintro ⟨e, he, rfl, hh⟩
    rw [holdsAt_of_seqGet (seqGet_of_mem hl he), hh]

/-- A lock and a list of sequences agree: the list is canonical, and the owner is the one thread past `acquire(mtx)`. -/
def LockAgrees (m : Option Nat) (l : List (Nat × Seq)) : Prop :=
  threadsRise l = true ∧ ∀ t, holdsAt t l = true ↔ m = some t

theorem State.lockInv_iff (s : State) : s.LockInv ↔ LockAgrees s.mtx s.seqs := by
  constructor
  · rintro ⟨hl, hown, hheld⟩
    refine ⟨hl, fun t => ?_⟩
    rw [holdsAt_iff hl]
    exact ⟨fun ⟨e, he, ht, hh⟩ => ht ▸ hown e he hh, fun hm => hheld t hm⟩
  · rintro ⟨hl, h⟩
    refine ⟨hl, fun e he hh => (h e.1).mp ((holdsAt_iff hl _).mpr ⟨e, he, rfl, hh⟩), fun t ht => ?_⟩
    exact (holdsAt_iff hl t).mp ((h t).mpr ht)

namespace LockAgrees
variable {m : Option Nat} {l : List (Nat × Seq)} {u : Nat} {q : Seq}

/-- A sequence moves without passing `acquire(mtx)`. -/
theorem put (h : LockAgrees m l) (hq : q.holdsLock = holdsAt u l) : LockAgrees m (seqPut u q l) := by
  refine ⟨threadsRise_seqPut u q h.1, fun t => ?_⟩
  rw [holdsAt_seqPut, ← h.2 t]
  split
  · next ht => rw [ht, hq]
  · rfl

/-- A thread takes the free lock and passes `acquire(mtx)`. -/
theorem take (h : LockAgrees none l) (hq : q.holdsLock = true) : LockAgrees (some u) (seqPut u q l) := by
  refine ⟨threadsRise_seqPut u q h.1, fun t => ?_⟩
  rw [holdsAt_seqPut, Option.some_inj]
  split
  · next ht => simp [hq, ht]
  · next ht => simp [h.2 t, Ne.symm ht]

/-- A thread that does not hold the lock ends its wait. -/
theorem drop (h : LockAgrees m l) (hu : holdsAt u l = false) : LockAgrees m (seqDrop u l) := by
  refine ⟨threadsRise_seqDrop u h.1, fun t => ?_⟩
  rw [holdsAt_seqDrop, ← h.2 t]
  split
  · next ht => rw [ht, hu]
  · rfl

/-- The owner returns and releases the lock: no other thread was past `acquire(mtx)`. -/
theorem release (h : LockAgrees m l) (hu : holdsAt u l = true) : LockAgrees none (seqDrop u l) := by
  have hm : m = some u := (h.2 u).mp hu
  refine ⟨threadsRise_seqDrop u h.1, fun t => ?_⟩
  rw [holdsAt_seqDrop]
  split
  · simp
  · next ht => simp [h.2 t, hm, Ne.symm ht]

end LockAgrees

/-- The lock and the sequences agree after whatever an operation does to them. -/
theorem OpEffect.lockAgrees {i : Instr} {s t : State} (h : OpEffect i s t) (hs : LockAgrees s.mtx s.seqs) :
    LockAgrees t.mtx t.seqs := by
  cases h with
  | done b => rw [b.mtx, b.seqs]; exact hs
  | @begins u q ha hc hq =>
    rw [State.curSeq_thread ha] at hc
    rw [State.putSeq_eq ha]
    exact hs.put (by simp [holdsAt, hc, hq])
  | acquires ha hc hm hq =>
    rw [hm] at hs
    exact hs.take hq
  | goesOn hc h₀ hq b =>
    obtain ⟨u, ha⟩ := State.agent_of_curSeq hc
    rw [State.curSeq_thread ha] at hc
    rw [State.putSeq_mtx, b.mtx, State.putSeq_eq (b.agent.trans ha), b.seqs]
    exact hs.put (by rw [holdsAt_of_seqGet hc, h₀, hq])
  | returns hc h₀ b =>
    obtain ⟨u, ha⟩ := State.agent_of_curSeq hc
    rw [State.curSeq_thread ha] at hc
    rw [State.returnWith_eq (b.agent.trans ha), b.seqs]
    exact hs.release (by rw [holdsAt_of_seqGet hc, h₀])
  | waitEnds hc h₀ b =>
    obtain ⟨u, ha⟩ := State.agent_of_curSeq hc
    rw [State.curSeq_thread ha] at hc
    rw [State.setStatus_mtx, State.setStatus_seqs, State.dropSeq_mtx, b.mtx,
      State.dropSeq_eq (b.agent.trans ha), b.seqs]
    exact hs.drop (by rw [holdsAt_of_seqGet hc, h₀])

/-- Settles O55: every operation keeps the agreement of the lock and the sequences, and no other move touches them. -/
theorem stepKeepsLock : Obligations.StepKeepsLock := by
  intro s t hs h
  rw [State.lockInv_iff] at hs ⊢
  cases step_effect h with
  | runs h h₀ => exact (exec_effect h).lockAgrees (by rw [h₀.mtx, h₀.seqs]; exact hs)
  | keeps h₀ => rw [h₀.mtx, h₀.seqs]; exact hs

end Sys2Proof.Machine

/-! SUPPORT. Operations in Stopped, the beginning of a sequence, and the moves that change inputs. -/

namespace Sys2Proof.Machine

open Host (Outcome)

/-! ### With no session -/

/-- In its own context and with no session, an operation that the checks hold to a session raises `NOT_RUNNING`. -/
theorem guardOp_stopped {i : Instr} {s : State} (k : Outcome State Fault Refusal)
    (ha : admits (opContext i) s.agent = true) (hc : checksSession i = true) (hs : s.sess = .stopped) :
    guardOp i s k = .next (s.setStatus 0xF2) := by
  unfold guardOp
  rw [if_neg (by simp [ha]), if_pos ⟨hc, hs⟩]
  rfl

/-- The same of every such operation issued by an agent with nothing in progress. -/
theorem exec_stopped {i : Instr} {s : State} (ha : admits (opContext i) s.agent = true)
    (hc : checksSession i = true) (hs : s.sess = .stopped) (hseq : s.curSeq = none) :
    exec i s = .next (s.setStatus 0xF2) := by
  cases i with
  | tcalc | pricmp | start | stop | send | receive => cases hc
  | waittx =>
    show execWaittx s = _
    unfold execWaittx
    rw [if_neg (by simp [show admits .thread s.agent = true from ha]), hseq]
    exact guardOp_stopped _ ha rfl hs
  | waitrx =>
    show execWaitrx s = _
    unfold execWaitrx
    rw [if_neg (by simp [show admits .thread s.agent = true from ha]), hseq]
    exact guardOp_stopped _ ha rfl hs
  | _ => exact guardOp_stopped _ ha rfl hs

theorem execSend_of_curSeq {s : State} {p : SendPos} {f : Frame} {timeout : Tick}
    (h : s.curSeq = some (.send p f timeout)) : exec .send s = .next (sendMove f timeout p s) := by
  show execSend s = _
  unfold execSend
  rw [h]

theorem execReceive_of_curSeq {s : State} {p : RecvPos} {timeout : Tick}
    (h : s.curSeq = some (.receive p timeout)) : exec .receive s = .next (receiveMove timeout p s) := by
  show execReceive s = _
  unfold execReceive
  rw [h]

theorem execStart_of_curSeq {s : State} {p : StartPos} {clk rate : Word} {opt : StartOpts}
    (h : s.curSeq = some (.start p clk rate opt)) : exec .start s = .next (startMove clk rate opt p s) := by
  show execStart s = _
  unfold execStart
  have ha : admits (opContext .start) s.agent = true := (admits_thread_iff _).mpr (State.ne_interrupt_of_curSeq h)
  refine (guardOp_pass _ ha nofun).trans ?_
  rw [h]

theorem execStop_of_curSeq {s : State} {p : StopPos} (h : s.curSeq = some (.stop p)) :
    exec .stop s = .next (stopMove p s) := by
  show execStop s = _
  unfold execStop
  have ha : admits (opContext .stop) s.agent = true := (admits_thread_iff _).mpr (State.ne_interrupt_of_curSeq h)
  refine (guardOp_pass _ ha nofun).trans ?_
  rw [h]

/-- A return with a code, for a thread. -/
theorem State.returnWith_eq_setStatus {s : State} {t : Nat} (h : s.agent = .thread t) (c : Byte) :
    s.returnWith c = State.setStatus c { s with mtx := none, seqs := seqDrop t s.seqs } := by
  unfold State.returnWith
  rw [State.dropSeq_eq (s := { s with mtx := none }) h]

/-- Settles O7: the checks raise the fault, and SEND and RECEIVE, which pass them, raise it at their own test. -/
theorem stoppedRaisesNotRunning : Obligations.StoppedRaisesNotRunning := by
  refine ⟨fun i s hs hseq hi => ?_, fun s t f timeout hs ha hq => ?_, fun s t timeout hs ha hq => ?_⟩
  · cases i with
    | tcalc | pricmp | start | stop | send | receive => exact hi.elim
    | qpush | evtxc | evrxa | evsts => exact exec_stopped ((admits_interrupt_iff _).mpr hi) rfl hs hseq
    | _ => exact exec_stopped ((admits_thread_iff _).mpr hi) rfl hs hseq
  · rw [execSend_of_curSeq ((State.curSeq_thread ha).trans hq), ← State.returnWith_eq_setStatus ha]
    exact congrArg Outcome.next (if_neg (by simp [hs]))
  · rw [execReceive_of_curSeq ((State.curSeq_thread ha).trans hq), ← State.returnWith_eq_setStatus ha]
    exact congrArg Outcome.next (if_neg (by simp [hs]))

/-- Settles O32: all four sequences begin with the one `acquire`. -/
theorem acquireTakesFreeLock : Obligations.AcquireTakesFreeLock := by
  intro s t ha
  have hcur := State.curSeq_thread ha
  refine ⟨fun clk rate opt hq => ?_, fun hq => ?_, fun f timeout hq => ?_, fun timeout hq => ?_⟩
  · exact (execStart_of_curSeq (hcur.trans hq)).trans (congrArg _ (State.acquire_eq ha _))
  · exact (execStop_of_curSeq (hcur.trans hq)).trans (congrArg _ (State.acquire_eq ha _))
  · exact (execSend_of_curSeq (hcur.trans hq)).trans (congrArg _ (State.acquire_eq ha _))
  · exact (execReceive_of_curSeq (hcur.trans hq)).trans (congrArg _ (State.acquire_eq ha _))

/-! ### Loads, ticks and CTRL's moves -/

/-- The four bytes of a word, put together again, are the word (20_memory R64). -/
theorem packWord_wordByte (w : Word) :
    packWord (wordByte w 0) (wordByte w 1) (wordByte w 2) (wordByte w 3) = w := by
  have h₂ : w.extractLsb' 24 8 ++ w.extractLsb' 16 8 = w.extractLsb' 16 16 :=
    BitVec.extractLsb'_append_extractLsb'_eq_extractLsb' rfl
  have h₁ : w.extractLsb' 16 16 ++ w.extractLsb' 8 8 = w.extractLsb' 8 24 :=
    BitVec.extractLsb'_append_extractLsb'_eq_extractLsb' rfl
  have h₀ : w.extractLsb' 8 24 ++ w.extractLsb' 0 8 = w.extractLsb' 0 32 :=
    BitVec.extractLsb'_append_extractLsb'_eq_extractLsb' rfl
  show w.extractLsb' 24 8 ++ w.extractLsb' 16 8 ++ w.extractLsb' 8 8 ++ w.extractLsb' 0 8 = w
  rw [h₂, h₁, h₀]
  exact BitVec.extractLsb'_eq_self

/-- Four words written to a Frame register, whatever it held, give the frame they lay out (30_encoding R93). -/
theorem setFrameWord_all (f : Frame) (w0 w1 w2 w3 : Word) :
    setFrameWord (setFrameWord (setFrameWord (setFrameWord f 0 w0) 1 w1) 2 w2) 3 w3 = Frame.ofWords w0 w1 w2 w3 :=
  congrArg (fun lo => Frame.mk w0 (w1.extractLsb' 0 4) (unpackWords lo w3)) (packWord_wordByte w2)

theorem getElem_setPortBit (v : BitVec 3) (i j : Fin 3) (b : Bool) :
    (setPortBit v i b)[j.val] = if j = i then b else v[j.val] :=
  portBit_setPortBit v i j b

theorem freesSlot_freeSlot (i : Fin 3) (flag : Option Bool) (c : Ctrl) : freesSlot i flag c (c.freeSlot i flag) := by
  refine ⟨fun j => ?_, rfl, rfl⟩
  have hmbox : (c.freeSlot i flag).regs.mbox[j] =
      if j = i then { c.regs.mbox[i] with req := false } else c.regs.mbox[j] := by
    simp [Ctrl.freeSlot, Vector.getElem_set, Fin.ext_iff, eq_comm]
  rw [hmbox]
  by_cases hj : j = i
  · subst hj
    cases flag <;> simp [Ctrl.freeSlot, getElem_setPortBit]
  · cases flag <;> simp [Ctrl.freeSlot, getElem_setPortBit, hj]

/-- A completion frees a busy slot and does nothing to a free one (60_exceptions R309 CP1). -/
theorem ctrlMove_txDone (i : Fin 3) (ok : Bool) (s : State) :
    if s.ctrl.status.tme.getLsbD i.val then (ctrlMove (.txDone i ok) s).ctrl = s.ctrl
    else freesSlot i (some ok) s.ctrl (ctrlMove (.txDone i ok) s).ctrl := by
  split
  · next h => exact congrArg State.ctrl (if_pos h)
  · next h =>
    rw [show ctrlMove (.txDone i ok) s = { s with ctrl := s.ctrl.freeSlot i (some ok) } from if_neg h]
    exact freesSlot_freeSlot i (some ok) s.ctrl

/-- An abort frees a busy slot whose abort is requested, and does nothing else (60_exceptions R309 CP5). -/
theorem ctrlMove_abortDone (i : Fin 3) (flagged : Bool) (s : State) :
    if s.ctrl.status.tme.getLsbD i.val = false ∧ s.ctrl.status.abrq.getLsbD i.val = true then
      freesSlot i (if flagged then some false else none) s.ctrl (ctrlMove (.abortDone i flagged) s).ctrl
    else (ctrlMove (.abortDone i flagged) s).ctrl = s.ctrl := by
  have hcond : (portBit s.ctrl.status.tme i || !portBit s.ctrl.status.abrq i) = true ↔
      ¬(s.ctrl.status.tme.getLsbD i.val = false ∧ s.ctrl.status.abrq.getLsbD i.val = true) := by
    simp only [portBit]
    cases s.ctrl.status.tme.getLsbD i.val <;> simp
  split
  · next h =>
    rw [show ctrlMove (.abortDone i flagged) s =
        { s with ctrl := s.ctrl.freeSlot i (if flagged then some false else none) } from
      if_neg fun hc => hcond.mp hc h]
    exact freesSlot_freeSlot i _ s.ctrl
  · next h => exact congrArg State.ctrl (if_pos (hcond.mpr h))

/-- Freeing a slot makes no slot busy. -/
theorem tme_of_freesSlot {i : Fin 3} {flag : Option Bool} {c d : Ctrl} (h : freesSlot i flag c d) (j : Fin 3)
    (hj : c.status.tme.getLsbD j.val = true) : d.status.tme.getLsbD j.val = true := by
  obtain ⟨htme, -⟩ := h.1 j
  rw [htme, hj, Bool.or_true]

/-- Within a session no move of CTRL makes a slot busy (60_exceptions R309 CP1). -/
theorem ctrlMove_tme {m : CtrlMove} {s : State} (hs : s.sess = .running) (j : Fin 3)
    (hj : s.ctrl.status.tme.getLsbD j.val = true) : (ctrlMove m s).ctrl.status.tme.getLsbD j.val = true := by
  cases m with
  | txDone i ok =>
    have h := ctrlMove_txDone i ok s
    split at h
    · rw [h, hj]
    · exact tme_of_freesSlot h j hj
  | abortDone i flagged =>
    have h := ctrlMove_abortDone i flagged s
    split at h
    · exact tme_of_freesSlot h j hj
    · rw [h, hj]
  | redraw st =>
    rw [show ctrlMove (.redraw st) s = s from if_neg (by simp [hs])]
    exact hj
  | rxDeliver | rxOverflow | busOff | lec | errorCond | initAck => exact hj

theorem step_load {s : State} {a : Agent} {o : OperandWrite} {rest : List Move} (hs : s.sched = .load a o :: rest)
    (ha : mayIssue a s = true) : step s = .next { s with sched := rest, ops := s.ops.load o } := by
  unfold step
  rw [hs]
  exact if_pos ha

theorem step_tick {s : State} {d : Tick} {rest : List Move} (hs : s.sched = .tick d :: rest) :
    step s = .next { s with sched := rest, now := s.now + d } := by
  unfold step
  rw [hs]
  rfl

theorem step_ctrl {s : State} {m : CtrlMove} {rest : List Move} (hs : s.sched = .ctrl m :: rest) :
    step s = .next { s with sched := rest, ctrl := (ctrlMove m { s with sched := rest }).ctrl } := by
  unfold step
  rw [hs]
  exact congrArg Outcome.next (ctrlMove_eq m _)

/-- Settles O51: the loads word by word, the tick, and CTRL's moves each by its own clause. -/
theorem inputMovesChangeInputsOnly : Obligations.InputMovesChangeInputsOnly := by
  refine ⟨fun s a o rest hs ha => step_load hs ha, fun r w0 w1 w2 w3 => ⟨?_, ?_, rfl, rfl, rfl, rfl, rfl, rfl⟩,
    fun s d rest hs => step_tick hs, fun s m rest hs => ⟨_, step_ctrl hs, fun hr j hj => ?_, ?_⟩⟩
  · exact congrArg (fun f => { r with frm := f }) (setFrameWord_all r.frm w0 w1 w2 w3)
  · exact congrArg (fun f => { r with frmB := f }) (setFrameWord_all r.frmB w0 w1 w2 w3)
  · exact ctrlMove_tme (s := { s with sched := rest }) hr j hj
  · refine ⟨?_, ?_, ?_, ?_, ?_, ?_, ?_, ?_, ?_⟩
    · rintro i ok rfl
      exact ctrlMove_txDone i ok { s with sched := rest }
    · rintro i flagged rfl
      exact ctrlMove_abortDone i flagged { s with sched := rest }
    · rintro k x rfl
      rfl
    · rintro k b rfl
      rfl
    · rintro b rfl
      rfl
    · rintro x rfl
      rfl
    · rintro rfl
      rfl
    · rintro b rfl
      rfl
    · rintro x rfl
      exact apply_ite State.ctrl _ _ _

end Sys2Proof.Machine

/-! SUPPORT. Operations in the wrong context (20_memory R68). -/

namespace Sys2Proof.Machine

open Host (Outcome)

theorem guardOp_context {i : Instr} {s : State} (k : Outcome State Fault Refusal)
    (ha : admits (opContext i) s.agent = false) : guardOp i s k = .next (s.setStatus 0xF1) :=
  if_pos ha

theorem eq_interrupt_of_not_admits {a : Agent} (ha : admits .thread a = false) : a = .interrupt := by
  cases a with
  | thread u => cases ha
  | interrupt => rfl

/-- Issued from a context it does not belong to, every operation raises `CONTEXT` (30_encoding R99). -/
theorem exec_context {i : Instr} {s : State} (ha : admits (opContext i) s.agent = false) :
    exec i s = .next (s.setStatus 0xF1) := by
  cases i with
  | send | receive =>
    simp only [exec, execSend, execReceive, State.curSeq_interrupt (eq_interrupt_of_not_admits ha)]
    exact guardOp_context _ ha
  | waittx | waitrx => exact if_pos ha
  | _ => exact guardOp_context _ ha

/-- Settles O6: outside its context an operation comes no further than the first check. -/
theorem wrongContextRaisesContext : Obligations.WrongContextRaisesContext := by
  intro i s hi
  apply exec_context
  cases i with
  | tcalc | pricmp => exact hi.elim
  | qpush | evtxc | evrxa | evsts => exact Bool.eq_false_iff.mpr fun h => hi ((admits_interrupt_iff _).mp h)
  | _ => exact Bool.eq_false_iff.mpr fun h => (admits_thread_iff _).mp h hi

end Sys2Proof.Machine

/-! SUPPORT. The session against the place of the lock's owner (20_memory R70): what each move of a sequence, every other
operation and every step leaves. -/

namespace Sys2Proof.Machine

open Host (Outcome)

/-! ### The session and the owner's place -/

theorem Seq.holdsLock_of_sessAt {q : Seq} {x : Session} (h : x ∈ q.sessAt) : q.holdsLock = true := by
  cases q with
  | start p => cases p with
    | acquire => cases h
    | _ => rfl
  | stop p => cases p with
    | acquire => cases h
    | _ => rfl
  | send p => cases p with
    | acquire => cases h
    | _ => rfl
  | receive p => cases p with
    | acquire => cases h
    | _ => rfl
  | waitTx | waitRx => cases h

theorem Seq.holdsLock_of_constructing {q : Seq} (h : q.constructing = true) : q.holdsLock = true := by
  cases q with
  | start p => cases p with
    | acquire => cases h
    | _ => rfl
  | stop | send | receive | waitTx | waitRx => cases h

/-- The sequence of the thread that owns `mtx`. -/
def State.ownerSeq (s : State) : Option Seq := s.mtx.bind fun t => seqGet t s.seqs

/-- A session and Driver State are what a place of the lock's owner says; with no owner, or a place that says nothing,
Stopped has no Driver State (10_state R26). -/
def SessionFits (x : Session) (d : Driver) (o : Option Seq) : Prop :=
  (∀ q ∈ o, ∀ y ∈ q.sessAt, x = y) ∧ (x = .stopped → d = Driver.absent ∨ ∃ q ∈ o, q.constructing = true)

/-- The session and Driver State fit the place of the lock's owner. -/
def State.Fits (s : State) : Prop := SessionFits s.sess s.drv s.ownerSeq

theorem State.ownerSeq_of_mtx {s : State} {u : Nat} (hm : s.mtx = some u) : s.ownerSeq = seqGet u s.seqs := by
  simp [State.ownerSeq, hm]

theorem State.ownerSeq_of_free {s : State} (hm : s.mtx = none) : s.ownerSeq = none := by
  simp [State.ownerSeq, hm]

/-- The owner's sequence is the one past `acquire(mtx)`. -/
theorem State.mem_ownerSeq_iff {s : State} (hl : s.LockInv) {q : Seq} :
    q ∈ s.ownerSeq ↔ q.holdsLock = true ∧ ∃ u, (u, q) ∈ s.seqs := by
  obtain ⟨hrise, hown, hheld⟩ := hl
  constructor
  · intro h
    obtain ⟨u, hm, hq⟩ := Option.bind_eq_some_iff.mp h
    obtain ⟨e, he, rfl, hh⟩ := hheld u hm
    rw [seqGet_of_mem hrise he] at hq
    cases hq
    exact ⟨hh, e.1, he⟩
  · rintro ⟨hh, u, hu⟩
    exact (State.ownerSeq_of_mtx (hown _ hu hh)).trans (seqGet_of_mem hrise hu)

/-- With the lock in order, only the owner's place says anything of the session. -/
theorem State.sessionInv_iff {s : State} (hl : s.LockInv) :
    s.SessionInv ↔ s.Fits ∧ (s.irq ≠ none → s.sess = .running) := by
  constructor
  · rintro ⟨hsess, hirq, hdrv⟩
    refine ⟨⟨fun q hq y hy => ?_, fun hs => (hdrv hs).imp_right ?_⟩, hirq⟩
    · obtain ⟨-, u, hu⟩ := (State.mem_ownerSeq_iff hl).mp hq
      exact hsess _ hu y hy
    · rintro ⟨e, he, hc⟩
      exact ⟨e.2, (State.mem_ownerSeq_iff hl).mpr ⟨Seq.holdsLock_of_constructing hc, e.1, he⟩, hc⟩
  · rintro ⟨⟨hsess, hdrv⟩, hirq⟩
    refine ⟨fun e he y hy => ?_, hirq, fun hs => (hdrv hs).imp_right ?_⟩
    · exact hsess e.2 ((State.mem_ownerSeq_iff hl).mpr ⟨Seq.holdsLock_of_sessAt hy, e.1, he⟩) y hy
    · rintro ⟨q, hq, hc⟩
      obtain ⟨-, u, hu⟩ := (State.mem_ownerSeq_iff hl).mp hq
      exact ⟨(u, q), hu, hc⟩

namespace SessionFits
variable {x : Session} {d d' : Driver} {o : Option Seq} {q₀ q : Seq}

/-- The owner stands at a place of a session. -/
theorem of_running (hx : x = .running) (hq : q.sessAt = some .running) : SessionFits x d (some q) := by
  subst hx
  refine ⟨fun _ h y hy => ?_, nofun⟩
  cases h
  exact Option.some.inj (hq.symm.trans hy)

theorem free_of_running (hx : x = .running) : SessionFits x d none := by
  subst hx
  exact ⟨nofun, nofun⟩

/-- The session and Driver State are gone, and the owner stands at a place of Stopped. -/
theorem of_discarded (hq : q.sessAt = some .stopped) : SessionFits .stopped Driver.absent (some q) := by
  refine ⟨fun _ h y hy => ?_, fun _ => .inl rfl⟩
  cases h
  exact Option.some.inj (hq.symm.trans hy)

theorem free_of_discarded : SessionFits .stopped Driver.absent none := ⟨nofun, fun _ => .inl rfl⟩

/-- Driver State has just been constructed: START's place alone counts. -/
theorem of_constructing (hx : ∀ y ∈ q.sessAt, x = y) (hq : q.constructing = true) : SessionFits x d (some q) :=
  ⟨fun _ h y hy => by cases h; exact hx y hy, fun _ => .inr ⟨q, rfl, hq⟩⟩

/-- The owner goes to a place that says the same. -/
theorem move (h : SessionFits x d (some q₀)) (hs : q.sessAt = q₀.sessAt) (hc : q.constructing = q₀.constructing) :
    SessionFits x d (some q) := by
  simpa [SessionFits, hs, hc] using h

/-- The owner returns from a place where no Driver State is under construction. -/
theorem release (h : SessionFits x d (some q₀)) (hc : q₀.constructing = false) : SessionFits x d none := by
  refine ⟨nofun, fun hx => (h.2 hx).imp_right ?_⟩
  rintro ⟨q, hq, hq'⟩
  cases hq
  rw [hc] at hq'
  cases hq'

/-- A thread takes the free lock, to a place that says nothing. -/
theorem take (h : SessionFits x d none) (hs : q.sessAt = none) : SessionFits x d (some q) := by
  refine ⟨fun _ hq y hy => ?_, fun hx => (h.2 hx).imp_right nofun⟩
  cases hq
  rw [hs] at hy
  cases hy

/-- Driver State changes, but not what stands for its absence. -/
theorem driver (h : SessionFits x d o) (hd : x = .stopped → d = Driver.absent → d' = Driver.absent) :
    SessionFits x d' o :=
  ⟨h.1, fun hx => (h.2 hx).imp_left (hd hx)⟩

end SessionFits

theorem execWaittx_of_curSeq {s : State} {ti budget : Tick} (h : s.curSeq = some (.waitTx ti budget)) :
    exec .waittx s = .next (waitTxMove ti budget s) := by
  show execWaittx s = _
  unfold execWaittx
  rw [if_neg (by simp [(admits_thread_iff _).mpr (State.ne_interrupt_of_curSeq h)]), h]

theorem execWaitrx_of_curSeq {s : State} {ti budget : Tick} (h : s.curSeq = some (.waitRx ti budget)) :
    exec .waitrx s = .next (waitRxMove ti budget s) := by
  show execWaitrx s = _
  unfold execWaitrx
  rw [if_neg (by simp [(admits_thread_iff _).mpr (State.ne_interrupt_of_curSeq h)]), h]

/-! ### The owner's moves -/

section moves
variable {s : State} {u : Nat} {q : Seq}

theorem State.putSeq_fits (ha : s.agent = .thread u) (hm : s.mtx = some u)
    (h : SessionFits s.sess s.drv (some q)) : (s.putSeq q).Fits := by
  have ho : (s.putSeq q).ownerSeq = some q := by
    rw [State.putSeq_eq ha, State.ownerSeq_of_mtx (s := { s with seqs := seqPut u q s.seqs }) hm]
    exact seqGet_seqPut_self u q s.seqs
  unfold State.Fits
  rw [ho]
  exact h

theorem State.returnWith_fits (c : Byte) (h : SessionFits s.sess s.drv none) : (s.returnWith c).Fits := h

/-- A thread that tries the lock leaves a state that fits: it takes the free lock to a place that says nothing. -/
theorem State.acquire_fits {q₀ : Seq} (hc : s.curSeq = some q₀) (hq : q.sessAt = none) (h : s.Fits) :
    (s.acquire q).Fits := by
  obtain ⟨u, ha⟩ := State.agent_of_curSeq hc
  unfold State.Fits at h
  unfold State.acquire
  split
  · next hm =>
    rw [State.ownerSeq_of_free hm] at h
    exact State.putSeq_fits ha (congrArg some (State.thread_eq ha)) (h.take hq)
  · exact h

/-- A thread past `acquire(mtx)` owns the lock, and the session fits its place. -/
theorem State.Fits.at_owner (h : s.Fits) (hl : s.LockInv) (hc : s.curSeq = some q) (hh : q.holdsLock = true) :
    ∃ u, s.agent = .thread u ∧ s.mtx = some u ∧ SessionFits s.sess s.drv (some q) := by
  obtain ⟨u, ha⟩ := State.agent_of_curSeq hc
  obtain ⟨-, hown, -⟩ := hl
  rw [State.curSeq_thread ha] at hc
  have hm : s.mtx = some u := hown _ (seqGet_mem hc) hh
  refine ⟨u, ha, hm, ?_⟩
  rw [← hc, ← State.ownerSeq_of_mtx hm]
  exact h

theorem startMove_fits {clk rate : Word} {opt : StartOpts} {p : StartPos} (hl : s.LockInv)
    (hc : s.curSeq = some (.start p clk rate opt)) (h : s.Fits) : (startMove clk rate opt p s).Fits := by
  rcases eq_or_ne p .acquire with rfl | hp
  · exact State.acquire_fits hc rfl h
  obtain ⟨u, ha, hm, hf⟩ := h.at_owner hl hc (decide_eq_true hp)
  cases p with
  | acquire => exact absurd rfl hp
  | hwEnable =>
    unfold startMove State.enableOnce
    dsimp only
    split
    · exact State.putSeq_fits ha hm (hf.move rfl rfl)
    · exact State.putSeq_fits ha hm (hf.move rfl rfl)
  | irqOff => exact State.putSeq_fits ha hm (hf.move rfl rfl)
  | sessStop => exact State.putSeq_fits ha hm (.of_discarded rfl)
  | reqInit => exact State.putSeq_fits ha hm (hf.move rfl rfl)
  | pollEnter n =>
    unfold startMove
    dsimp only
    split
    · exact State.putSeq_fits ha hm (hf.move rfl rfl)
    · exact State.putSeq_fits ha hm (hf.move rfl rfl)
    · exact State.returnWith_fits _ (hf.release rfl)
  | construct =>
    unfold startMove State.constructDriver
    dsimp only
    generalize Driver.fresh s.freeIdx opt.loopback = d
    exact State.putSeq_fits ha hm (.of_constructing (hf.1 (.start .construct clk rate opt) rfl) rfl)
  | tcalc => exact State.putSeq_fits ha hm (hf.move rfl rfl)
  | checkTim r =>
    cases r with
    | ok tim => exact State.putSeq_fits ha hm (hf.move rfl rfl)
    | invalidBitRate => exact State.returnWith_fits _ .free_of_discarded
    | logic => exact State.returnWith_fits _ .free_of_discarded
  | setTiming tim => exact State.putSeq_fits ha hm (hf.move rfl rfl)
  | sessRun => exact State.putSeq_fits ha hm (.of_running rfl rfl)
  | irqOn => exact State.putSeq_fits ha hm (hf.move rfl rfl)
  | reqExit => exact State.putSeq_fits ha hm (hf.move rfl rfl)
  | pollExit n =>
    unfold startMove
    dsimp only
    split
    · exact State.putSeq_fits ha hm (hf.move rfl rfl)
    · exact State.putSeq_fits ha hm (hf.move rfl rfl)
    · exact State.putSeq_fits ha hm (hf.move rfl rfl)
  | failExit => exact State.putSeq_fits ha hm (hf.move rfl rfl)
  | failStop => exact State.putSeq_fits ha hm (.of_discarded rfl)
  | failReturn => exact State.returnWith_fits _ (hf.release rfl)
  | filter => exact State.putSeq_fits ha hm (hf.move rfl rfl)
  | finish => exact State.returnWith_fits _ (hf.release rfl)

theorem stopMove_fits {p : StopPos} (hl : s.LockInv) (hc : s.curSeq = some (.stop p)) (h : s.Fits) :
    (stopMove p s).Fits := by
  rcases eq_or_ne p .acquire with rfl | hp
  · exact State.acquire_fits hc rfl h
  obtain ⟨u, ha, hm, hf⟩ := h.at_owner hl hc (decide_eq_true hp)
  cases p with
  | acquire => exact absurd rfl hp
  | irqOff => exact State.putSeq_fits ha hm (hf.move rfl rfl)
  | sessStop => exact State.putSeq_fits ha hm (.of_discarded rfl)
  | lowPower => exact State.putSeq_fits ha hm (hf.move rfl rfl)
  | clearIrq => exact State.putSeq_fits ha hm (hf.move rfl rfl)
  | finish => exact State.returnWith_fits _ (hf.release rfl)

theorem loadMailbox_sess (f : Frame) (s : State) : (loadMailbox f s).2.sess = s.sess := by
  rcases loadMailbox_cases f s with ⟨-, h⟩ | ⟨-, -, h⟩ | ⟨-, k, -, h⟩ <;> rw [h]
  rfl

theorem sendMove_fits {f : Frame} {timeout : Tick} {p : SendPos} (hl : s.LockInv)
    (hc : s.curSeq = some (.send p f timeout)) (h : s.Fits) : (sendMove f timeout p s).Fits := by
  rcases eq_or_ne p .acquire with rfl | hp
  · exact State.acquire_fits hc rfl h
  obtain ⟨u, ha, hm, hf⟩ := h.at_owner hl hc (decide_eq_true hp)
  cases p with
  | acquire => exact absurd rfl hp
  | checkRunning =>
    unfold sendMove
    dsimp only
    split
    · next hr => exact State.putSeq_fits ha hm (.of_running hr rfl)
    · exact State.returnWith_fits _ (hf.release rfl)
  | entry => exact State.putSeq_fits ha hm (hf.move rfl rfl)
  | canacc t0 =>
    unfold sendMove
    dsimp only
    split
    · exact State.putSeq_fits ha hm (hf.move rfl rfl)
    · exact State.putSeq_fits ha hm (hf.move rfl rfl)
  | mbload t0 =>
    have hr : s.sess = .running := hf.1 _ rfl _ rfl
    have b : OpBody .send s (loadMailbox f s).2 := loadMailbox_body f s
    exact State.putSeq_fits (b.agent.trans ha) (b.mtx.trans hm) (.of_running ((loadMailbox_sess f s).trans hr) rfl)
  | loaded t0 r =>
    unfold sendMove
    dsimp only
    split
    · exact State.returnWith_fits _ (hf.release rfl)
    · split
      · exact State.returnWith_fits _ (hf.release rfl)
      · exact State.putSeq_fits ha hm (hf.move rfl rfl)
  | tail t0 q =>
    have hr : s.sess = .running := hf.1 _ rfl _ rfl
    unfold sendMove
    dsimp only
    split
    · exact h
    · exact State.returnWith_fits _ (hf.release rfl)
    · exact State.putSeq_fits ha hm (hf.move rfl rfl)
    · exact State.putSeq_fits ha hm (.of_running hr rfl)
    · exact State.putSeq_fits ha hm (hf.move rfl rfl)

theorem receiveMove_fits {timeout : Tick} {p : RecvPos} (hl : s.LockInv)
    (hc : s.curSeq = some (.receive p timeout)) (h : s.Fits) : (receiveMove timeout p s).Fits := by
  rcases eq_or_ne p .acquire with rfl | hp
  · exact State.acquire_fits hc rfl h
  obtain ⟨u, ha, hm, hf⟩ := h.at_owner hl hc (decide_eq_true hp)
  cases p with
  | acquire => exact absurd rfl hp
  | checkRunning =>
    unfold receiveMove
    dsimp only
    split
    · next hr => exact State.putSeq_fits ha hm (.of_running hr rfl)
    · exact State.returnWith_fits _ (hf.release rfl)
  | entry => exact State.putSeq_fits ha hm (hf.move rfl rfl)
  | tryPop t0 =>
    have hr : s.sess = .running := hf.1 _ rfl _ rfl
    unfold receiveMove
    dsimp only
    split
    · exact State.putSeq_fits ha hm (hf.move rfl rfl)
    · exact State.returnWith_fits _ (.free_of_running hr)
  | tail t0 q =>
    have hr : s.sess = .running := hf.1 _ rfl _ rfl
    unfold receiveMove
    dsimp only
    split
    · exact h
    · exact State.returnWith_fits _ (hf.release rfl)
    · exact State.putSeq_fits ha hm (hf.move rfl rfl)
    · exact State.putSeq_fits ha hm (.of_running hr rfl)
    · exact State.putSeq_fits ha hm (hf.move rfl rfl)

/-! ### The moves of other threads -/

theorem State.mtx_ne_of_curSeq (hl : s.LockInv) (ha : s.agent = .thread u)
    (hc : ∀ q ∈ s.curSeq, q.holdsLock = false) : s.mtx ≠ some u := by
  intro hm
  obtain ⟨hrise, -, hheld⟩ := hl
  obtain ⟨e, he, rfl, hh⟩ := hheld u hm
  have hq := hc e.2 ((State.curSeq_thread ha).trans (seqGet_of_mem hrise he))
  rw [hh] at hq
  cases hq

/-- What a thread that does not own the lock does to its own sequence leaves the owner's. -/
theorem State.ownerSeq_of_others {t : State} (hu : s.mtx ≠ some u) (hm : t.mtx = s.mtx)
    (hs : ∀ v ≠ u, seqGet v t.seqs = seqGet v s.seqs) : t.ownerSeq = s.ownerSeq := by
  unfold State.ownerSeq
  rw [hm]
  cases hv : s.mtx with
  | none => rfl
  | some v => exact hs v fun e => hu (hv.trans (congrArg some e))

theorem State.putSeq_ownerSeq (hl : s.LockInv) (ha : s.agent = .thread u) (hc : s.curSeq = none) (q : Seq) :
    (s.putSeq q).ownerSeq = s.ownerSeq := by
  have hu : s.mtx ≠ some u := State.mtx_ne_of_curSeq hl ha (by rw [hc]; nofun)
  rw [State.putSeq_eq ha]
  exact State.ownerSeq_of_others hu rfl fun v hv => seqGet_seqPut_of_ne hv q s.seqs

theorem State.dropSeq_ownerSeq {q₀ : Seq} (hl : s.LockInv) (hc : s.curSeq = some q₀) (hq : q₀.holdsLock = false) :
    s.dropSeq.ownerSeq = s.ownerSeq := by
  obtain ⟨u, ha⟩ := State.agent_of_curSeq hc
  have hu : s.mtx ≠ some u := State.mtx_ne_of_curSeq hl ha (by rw [hc]; rintro _ ⟨⟩; exact hq)
  rw [State.dropSeq_eq ha]
  exact State.ownerSeq_of_others hu rfl fun v hv => seqGet_seqDrop_of_ne hv s.seqs

/-- A stand-alone wait ends: the owner's place is as it was, whatever latch was consumed. -/
theorem State.waitEnds_fits {q₀ : Seq} {d : Driver} (hl : s.LockInv) (hc : s.curSeq = some q₀)
    (hq : q₀.holdsLock = false) (h : SessionFits s.sess d s.ownerSeq) (c : Byte) :
    (State.setStatus c { s.dropSeq with drv := d }).Fits := by
  rw [← State.dropSeq_ownerSeq hl hc hq] at h
  exact h

theorem waitTxMove_fits {ti budget : Tick} (hl : s.LockInv) (hc : s.curSeq = some (.waitTx ti budget)) (h : s.Fits) :
    (waitTxMove ti budget s).Fits := by
  unfold waitTxMove
  split
  · exact h
  · exact State.waitEnds_fits hl hc rfl (h.driver fun _ hd => by rw [State.clearTxEv_drv, hd]; rfl) _
  · exact State.waitEnds_fits hl hc rfl h _
  · exact State.waitEnds_fits hl hc rfl h _

theorem waitRxMove_fits {ti budget : Tick} (hl : s.LockInv) (hc : s.curSeq = some (.waitRx ti budget)) (h : s.Fits) :
    (waitRxMove ti budget s).Fits := by
  unfold waitRxMove
  split
  · exact h
  · exact State.waitEnds_fits hl hc rfl (h.driver fun _ hd => by rw [State.clearRxEv_drv, hd]; rfl) _
  · exact State.waitEnds_fits hl hc rfl h _
  · exact State.waitEnds_fits hl hc rfl h _

/-- A thread that carries on leaves a state that fits. -/
theorem carriesOn_fits {t : State} (hl : s.LockInv) (hc : s.curSeq = some q) (hf : s.Fits)
    (h : exec q.instr s = .next t) : t.Fits := by
  cases q with
  | start p clk rate opt =>
    cases (execStart_of_curSeq hc).symm.trans h
    exact startMove_fits hl hc hf
  | stop p =>
    cases (execStop_of_curSeq hc).symm.trans h
    exact stopMove_fits hl hc hf
  | send p f timeout =>
    cases (execSend_of_curSeq hc).symm.trans h
    exact sendMove_fits hl hc hf
  | receive p timeout =>
    cases (execReceive_of_curSeq hc).symm.trans h
    exact receiveMove_fits hl hc hf
  | waitTx ti budget =>
    cases (execWaittx_of_curSeq hc).symm.trans h
    exact waitTxMove_fits hl hc hf
  | waitRx ti budget =>
    cases (execWaitrx_of_curSeq hc).symm.trans h
    exact waitRxMove_fits hl hc hf

end moves

/-! ### Operations of an agent with nothing in progress -/

/-- The session is as it was, and in Stopped Driver State too. -/
structure State.KeepsSession (s t : State) : Prop where
  sess : t.sess = s.sess
  drv : s.sess = .stopped → t.drv = s.drv

section issued
variable {i : Instr} {s t t' : State}

theorem guardOp_keepsSession {k : Outcome State Fault Refusal} (h : guardOp i s k = .next t)
    (hk : (checksSession i = true → s.sess = .running) → k = .next t → s.KeepsSession t) : s.KeepsSession t := by
  rcases guardOp_cases i s k with ⟨-, e⟩ | ⟨-, -, -, e⟩ | ⟨-, hr, e⟩
  · cases e.symm.trans h
    exact ⟨rfl, fun _ => rfl⟩
  · cases e.symm.trans h
    exact ⟨rfl, fun _ => rfl⟩
  · exact hk hr (e.symm.trans h)

/-- An operation held to a session comes to its rule in a session only. -/
theorem guardOp_keepsSession_of_checks {k : Outcome State Fault Refusal} (h : guardOp i s k = .next t)
    (hi : checksSession i = true) (hk : k = .next t → t.sess = s.sess) : s.KeepsSession t :=
  guardOp_keepsSession h fun hr e => ⟨hk e, fun hs => by rw [hr hi] at hs; cases hs⟩

theorem guardOp_next_keepsSession_of_checks (h : guardOp i s (.next t') = .next t) (hi : checksSession i = true)
    (ht : t'.sess = s.sess) : s.KeepsSession t :=
  guardOp_keepsSession_of_checks h hi fun e => by cases e; exact ht

theorem guardOp_next_keepsSession (h : guardOp i s (.next t') = .next t) (k : s.KeepsSession t') : s.KeepsSession t :=
  guardOp_keepsSession h fun _ e => by cases e; exact k

theorem statusChange_sess (s : State) : (statusChange s).sess = s.sess := by
  unfold statusChange
  dsimp only
  split <;> rfl

theorem execEvtxc_keepsSession {idx : BitVec 2} {ok : Bool} (h : execEvtxc idx ok s = .next t) : s.KeepsSession t := by
  refine guardOp_keepsSession_of_checks h rfl fun e => ?_
  split at e <;> cases e <;> rfl

theorem execEvrxa_keepsSession {idx : BitVec 2} (h : execEvrxa idx s = .next t) : s.KeepsSession t := by
  refine guardOp_keepsSession_of_checks h rfl fun e => ?_
  split at e
  · cases e
    rfl
  split at e
  · cases e
    rfl
  split at e <;> cases e <;> rfl

theorem execQpop_keepsSession (h : execQpop s = .next t) : s.KeepsSession t := by
  refine guardOp_keepsSession_of_checks h rfl fun e => ?_
  split at e <;> cases e <;> rfl

/-- An operation issued by an agent with nothing in progress keeps the session, and in Stopped Driver State: START, STOP,
SEND and RECEIVE only note their sequence, and the checks hold the others to a session. -/
theorem exec_keepsSession (hc : s.curSeq = none) (h : exec i s = .next t) : s.KeepsSession t := by
  cases i with
  | tcalc => exact guardOp_next_keepsSession (i := .tcalc) h ⟨rfl, fun _ => rfl⟩
  | pricmp => exact guardOp_next_keepsSession (i := .pricmp) h ⟨rfl, fun _ => rfl⟩
  | mbload => exact guardOp_next_keepsSession_of_checks h rfl (loadMailbox_sess s.ops.frm s)
  | qpop => exact execQpop_keepsSession h
  | evtxc idx ok => exact execEvtxc_keepsSession h
  | evrxa idx => exact execEvrxa_keepsSession h
  | evsts => exact guardOp_next_keepsSession_of_checks h rfl (statusChange_sess s)
  | start | stop | send | receive =>
    simp only [exec, execStart, execStop, execSend, execReceive, hc] at h
    exact guardOp_next_keepsSession h ⟨rfl, fun _ => rfl⟩
  | waittx | waitrx =>
    simp only [exec, execWaittx, execWaitrx, hc] at h
    split at h
    · cases h
      exact ⟨rfl, fun _ => rfl⟩
    · exact guardOp_next_keepsSession h ⟨rfl, fun _ => rfl⟩
  | _ => exact guardOp_next_keepsSession_of_checks h rfl rfl

/-- Such an operation leaves the owner's place as it was. -/
theorem exec_ownerSeq (hl : s.LockInv) (hc : s.curSeq = none) (h : exec i s = .next t) : t.ownerSeq = s.ownerSeq := by
  cases exec_effect h with
  | done b =>
    unfold State.ownerSeq
    rw [b.mtx, b.seqs]
  | begins ha _ hq => exact State.putSeq_ownerSeq hl ha hc _
  | acquires _ hc' | goesOn hc' | returns hc' | waitEnds hc' =>
    rw [hc] at hc'
    cases hc'

theorem issued_fits (hl : s.LockInv) (hc : s.curSeq = none) (hf : s.Fits) (h : exec i s = .next t) : t.Fits := by
  have k := exec_keepsSession hc h
  unfold State.Fits at hf ⊢
  rw [k.sess, exec_ownerSeq hl hc h]
  exact hf.driver fun hs hd => (k.drv hs).trans hd

end issued

/-! ### Every step -/

/-- From `s` to `t` no operation runs: the lock, the sequences, Driver State and the session are as they were, and an
interrupt entry begins in a session only (60_exceptions R292 DP1). -/
structure State.SameSession (s t : State) : Prop extends s.SameCore t where
  sess : t.sess = s.sess
  irq : t.irq ≠ none → s.irq ≠ none ∨ s.sess = .running

namespace State.SameSession
variable {s t : State}

theorem refl : s.SameSession s := ⟨⟨rfl, rfl, rfl⟩, rfl, .inl⟩

theorem lockInv (h : s.SameSession t) (hl : s.LockInv) : t.LockInv := by
  unfold State.LockInv
  rw [h.mtx, h.seqs]
  exact hl

theorem sessionInv (h : s.SameSession t) (hs : s.SessionInv) : t.SessionInv := by
  obtain ⟨hsess, hirq, hdrv⟩ := hs
  unfold State.SessionInv
  rw [h.seqs, h.sess, h.drv]
  exact ⟨hsess, fun hi => (h.irq hi).elim hirq id, hdrv⟩

end State.SameSession

/-- A step runs an operation of an agent with nothing in progress, or lets a thread carry on outside an interrupt entry
(20_memory R72 b), or runs no operation. -/
inductive SessionStep (s t : State) : Prop
  | issues {i : Instr} {s₀ : State} (h : exec i s₀ = .next t) (hc : s₀.curSeq = none) (hs : s.SameSession s₀)
  | carriesOn {q : Seq} {s₀ : State} (h : exec q.instr s₀ = .next t) (hc : s₀.curSeq = some q) (hi : s₀.irq = none)
      (hs : s.SameSession s₀)
  | keeps (hs : s.SameSession t)

theorem issue_sessionStep {a : Agent} {w : Word} {s t : State} (ha : mayIssue a s = true) (h : issue a w s = .next t) :
    SessionStep s t := by
  unfold issue at h
  split at h
  · cases h
    exact .keeps ⟨⟨rfl, rfl, rfl⟩, rfl, .inl⟩
  · refine .issues h ?_ ⟨⟨rfl, rfl, rfl⟩, rfl, .inl⟩
    cases a with
    | thread u =>
      obtain ⟨-, hq⟩ := Bool.and_eq_true_iff.mp ha
      exact Option.isNone_iff_eq_none.mp hq
    | interrupt => rfl

theorem carryOn_sessionStep {u : Nat} {k : Wake} {s t : State} (h : carryOn u k s = .next t) : SessionStep s t := by
  unfold carryOn at h
  split at h
  · next hi =>
    split at h
    · cases h
      exact .keeps .refl
    · next q hq => exact .carriesOn h hq hi ⟨⟨rfl, rfl, rfl⟩, rfl, .inl⟩
  · cases h
    exact .keeps .refl

theorem serve_sessionStep {c : Cause} {s t : State} (h : serve c s = .next t) : SessionStep s t := by
  unfold serve at h
  split at h
  · cases h
    exact .keeps .refl
  · split at h
    · cases c with
      | txc k => exact .issues h rfl ⟨⟨rfl, rfl, rfl⟩, rfl, .inl⟩
      | rx k => exact .issues h rfl ⟨⟨rfl, rfl, rfl⟩, rfl, .inl⟩
      | status => exact .issues h rfl ⟨⟨rfl, rfl, rfl⟩, rfl, .inl⟩
    · cases h
      exact .keeps .refl

theorem irqEnter_sameSession (s : State) : s.SameSession s.irqEnter := by
  unfold State.irqEnter
  split
  · next hen =>
    obtain ⟨-, hr, -⟩ := hen
    exact ⟨⟨rfl, rfl, rfl⟩, rfl, fun _ => .inr hr⟩
  · exact .refl

theorem irqLeave_sameSession (s : State) : s.SameSession s.irqLeave := by
  unfold State.irqLeave
  split
  · exact ⟨⟨rfl, rfl, rfl⟩, rfl, fun hi => absurd rfl hi⟩
  · exact .refl

theorem perform_sessionStep {m : Move} {s t : State} (h : perform m s = .next t) : SessionStep s t := by
  cases m with
  | load a w =>
    unfold perform at h
    dsimp only at h
    split at h <;> cases h <;> exact .keeps ⟨⟨rfl, rfl, rfl⟩, rfl, .inl⟩
  | cmd a w =>
    unfold perform at h
    dsimp only at h
    split at h
    · next ha => exact issue_sessionStep ha h
    · cases h
      exact .keeps .refl
  | run u k => exact carryOn_sessionStep h
  | ctrl m =>
    cases h
    rw [ctrlMove_eq]
    exact .keeps ⟨⟨rfl, rfl, rfl⟩, rfl, .inl⟩
  | tick d =>
    cases h
    exact .keeps ⟨⟨rfl, rfl, rfl⟩, rfl, .inl⟩
  | irqEnter =>
    cases h
    exact .keeps (irqEnter_sameSession s)
  | dispatch c => exact serve_sessionStep h
  | irqLeave =>
    cases h
    exact .keeps (irqLeave_sameSession s)

/-- Everything a step can do to the session: the move is made with one move less in the list. -/
theorem step_sessionStep {s t : State} (h : step s = .next t) : SessionStep s t := by
  unfold step at h
  split at h
  · cases h
    exact .keeps .refl
  · cases perform_sessionStep h with
    | issues h hc hs => exact .issues h hc ⟨⟨hs.mtx, hs.seqs, hs.drv⟩, hs.sess, hs.irq⟩
    | carriesOn h hc hi hs => exact .carriesOn h hc hi ⟨⟨hs.mtx, hs.seqs, hs.drv⟩, hs.sess, hs.irq⟩
    | keeps hs => exact .keeps ⟨⟨hs.mtx, hs.seqs, hs.drv⟩, hs.sess, hs.irq⟩

/-- Settles O56: only the owner of the lock moves the session, outside an interrupt entry, and each of its moves leaves
the session its next place asks for. -/
theorem stepKeepsSession : Obligations.StepKeepsSession := by
  intro s t hl hs h
  have hlt : t.LockInv := stepKeepsLock s t hl h
  cases step_sessionStep h with
  | @issues i s₀ h hc h₀ =>
    have hl₀ := h₀.lockInv hl
    obtain ⟨hf, hirq⟩ := (State.sessionInv_iff hl₀).mp (h₀.sessionInv hs)
    obtain ⟨-, -, hi, -⟩ := (exec_effect h).sameInputs
    refine (State.sessionInv_iff hlt).mpr ⟨issued_fits hl₀ hc hf h, ?_⟩
    rw [hi, (exec_keepsSession hc h).sess]
    exact hirq
  | @carriesOn q s₀ h hc hi₀ h₀ =>
    have hl₀ := h₀.lockInv hl
    obtain ⟨hf, -⟩ := (State.sessionInv_iff hl₀).mp (h₀.sessionInv hs)
    obtain ⟨-, -, hi, -⟩ := (exec_effect h).sameInputs
    exact (State.sessionInv_iff hlt).mpr ⟨carriesOn_fits hl₀ hc hf h, fun hn => absurd (hi.trans hi₀) hn⟩
  | keeps h₀ => exact h₀.sessionInv hs

end Sys2Proof.Machine

/-! SUPPORT. Command words: when one decodes to an instruction (30_encoding R98 to R101), the step that runs it, and the
four operations that only begin a sequence when they are issued (R97). -/

namespace Sys2Proof

/-! ### Decoding -/

@[simp] theorem formatN_eq_instr_iff {idx : BitVec 2} {ok : Bool} {i j : Instr} :
    formatN idx ok i = .instr j ↔ i = j ∧ idx = 0#2 ∧ ok = false := by
  unfold formatN
  split
  · next h => simp [h]
  · next h => simp [h]

@[simp] theorem formatI_eq_instr_iff {ok : Bool} {i j : Instr} : formatI ok i = .instr j ↔ i = j ∧ ok = false := by
  unfold formatI
  split
  · next h => simp [h]
  · next h => simp [h]

/-- Three fields decode to an instruction exactly when they are that instruction's fields (30_encoding R98, R100). -/
theorem decodeFields_eq_instr_iff {op : Byte} {idx : BitVec 2} {ok : Bool} {i : Instr} :
    decodeFields op idx ok = .instr i ↔ op = opCode i ∧ idx = idxField i ∧ ok = okField i := by
  constructor
  · intro h
    unfold decodeFields at h
    split at h
    case h_9 hop => -- format X: EVTXC
      cases h
      exact ⟨BitVec.eq_of_toNat_eq hop, rfl, rfl⟩
    case h_10 hop => -- format I: EVRXA
      obtain ⟨rfl, rfl⟩ := formatI_eq_instr_iff.mp h
      exact ⟨BitVec.eq_of_toNat_eq hop, rfl, rfl⟩
    case h_25 => cases h -- a reserved code
    all_goals -- format N
      next hop =>
        obtain ⟨rfl, rfl, rfl⟩ := formatN_eq_instr_iff.mp h
        exact ⟨BitVec.eq_of_toNat_eq hop, rfl, rfl⟩
  · rintro ⟨rfl, rfl, rfl⟩
    cases i <;> rfl

/-- A command word decodes to an instruction exactly when its fields are that instruction's and its reserved bits are
zero (30_encoding R98, R99). -/
theorem decode_eq_instr_iff {w : Word} {i : Instr} :
    decode w = .instr i ↔ cmdOp w = opCode i ∧ cmdIdx w = idxField i ∧ cmdOk w = okField i ∧ cmdReserved w = 0#21 := by
  unfold decode
  split
  · next h => simp [h, decodeFields_eq_instr_iff]
  · next h => simp [h]

/-- A command word whose reserved bits are zero is put together from its fields. -/
theorem cmdWord_fields {w : Word} (h : cmdReserved w = 0#21) : cmdWord (cmdOp w) (cmdIdx w) (cmdOk w) = w := by
  have hok : BitVec.ofBool (cmdOk w) = w.extractLsb' 10 1 := by
    ext k hk
    obtain rfl : k = 0 := by omega
    simp [cmdOk]
  unfold cmdWord
  rw [hok, ← h]
  unfold cmdReserved cmdIdx cmdOp
  rw [BitVec.extractLsb'_append_extractLsb'_eq_extractLsb' (show 11 = 10 + 1 from rfl),
    BitVec.extractLsb'_append_extractLsb'_eq_extractLsb' (show 10 = 8 + 2 from rfl),
    BitVec.extractLsb'_append_extractLsb'_eq_extractLsb' (show 8 = 0 + 8 from rfl)]
  exact BitVec.extractLsb'_eq_self

theorem eq_cmdWord_iff {w : Word} {op : Byte} {idx : BitVec 2} {ok : Bool} :
    w = cmdWord op idx ok ↔ cmdOp w = op ∧ cmdIdx w = idx ∧ cmdOk w = ok ∧ cmdReserved w = 0#21 := by
  constructor
  · rintro rfl
    exact Laws.EncodeFields.fields_cmdWord op idx ok
  · rintro ⟨rfl, rfl, rfl, h⟩
    exact (cmdWord_fields h).symm

/-- Settles O2: both sides say that the fields of the word are the instruction's. -/
theorem decodeIffEncode : Obligations.DecodeIffEncode := fun _ _ => decode_eq_instr_iff.trans eq_cmdWord_iff.symm

theorem decodeTableWord_eq_some_iff {n w : Nat} {i : Instr} :
    decodeTableWord n w = some i ↔ decode (BitVec.ofNat 32 (w % 2 ^ n)) = .instr i := by
  unfold decodeTableWord
  split
  · next j h => simp [h]
  · next why h => simp [h]

/-- Settles O1: each word is evaluated. -/
theorem decodesSpecWords : Obligations.DecodesSpecWords := by
  unfold Obligations.DecodesSpecWords
  decide

/-! ### What no instruction's fields are -/

/-- The reserved codes (30_encoding R101). -/
def ReservedCode (n : Nat) : Prop :=
  n = 0x00 ∨ (0x03 ≤ n ∧ n ≤ 0x0F) ∨ (0x12 ≤ n ∧ n ≤ 0x1F) ∨ (0x24 ≤ n ∧ n ≤ 0x2F) ∨ (0x33 ≤ n ∧ n ≤ 0x3F) ∨
    (0x44 ≤ n ∧ n ≤ 0x47) ∨ (0x4A ≤ n ∧ n ≤ 0x4F) ∨ 0x57 ≤ n

theorem not_reservedCode_opCode (i : Instr) : ¬ReservedCode (opCode i).toNat := by
  cases i <;> simp [ReservedCode, opCode]

/-- Only formats X and I have an index (30_encoding R98). -/
theorem idxField_eq_zero {i : Instr} (h₀ : opCode i ≠ 0x30#8) (h₁ : opCode i ≠ 0x31#8) : idxField i = 0#2 := by
  cases i with
  | evtxc => exact absurd rfl h₀
  | evrxa => exact absurd rfl h₁
  | _ => rfl

/-- Only format X has a success flag (30_encoding R98). -/
theorem okField_eq_false {i : Instr} (h : opCode i ≠ 0x30#8) : okField i = false := by
  cases i with
  | evtxc => exact absurd rfl h
  | _ => rfl

end Sys2Proof

namespace Sys2Proof.Machine

/-! ### A command word is written -/

theorem issue_of_instr {w : Word} {i : Instr} (h : decode w = .instr i) (a : Agent) (s : State) :
    issue a w s = exec i { s with agent := a } := by
  unfold issue
  rw [h]

theorem issue_of_no_instr {w : Word} (h : ∀ i, decode w ≠ .instr i) (a : Agent) (s : State) :
    issue a w s = .next (State.setStatus 0xF0 { s with agent := a }) := by
  cases hd : decode w with
  | instr i => exact absurd hd (h i)
  | illegal why =>
    unfold issue
    rw [hd]
    rfl

/-- Settles O3: the word is no instruction, because no instruction has such a field. -/
theorem reservedEncodingsRaiseIllegalOp : Obligations.ReservedEncodingsRaiseIllegalOp := by
  intro a w s h
  refine issue_of_no_instr (fun i hd => ?_) a s
  obtain ⟨hop : w.extractLsb' 0 8 = opCode i, hidx : w.extractLsb' 8 2 = idxField i,
    hok : w.getLsbD 10 = okField i, hres⟩ := decode_eq_instr_iff.mp hd
  rw [hop, hidx, hok] at h
  rcases h with h | h | ⟨h₀, h₁, h⟩ | ⟨h₀, h⟩
  · exact h hres
  · exact not_reservedCode_opCode i h
  · exact h (idxField_eq_zero h₀ h₁)
  · exact Bool.false_ne_true ((okField_eq_false h₀).symm.trans h)

/-! ### The step that runs it -/

theorem step_cmd {s : State} {a : Agent} {w : Word} {rest : List Move} {i : Instr} (hs : s.sched = .cmd a w :: rest)
    (ha : mayIssue a s = true) (hd : decode w = .instr i) : step s = exec i { s with sched := rest, agent := a } := by
  unfold step
  rw [hs]
  exact (if_pos ha).trans (issue_of_instr hd a _)

theorem step_run {s : State} {t : Nat} {k : Wake} {rest : List Move} {q : Seq} (hs : s.sched = .run t k :: rest)
    (hi : s.irq = none) (hq : seqGet t s.seqs = some q) :
    step s = exec q.instr { s with sched := rest, agent := .thread t, wake := k } := by
  unfold step
  rw [hs]
  refine (if_pos hi).trans ?_
  dsimp only
  rw [hq]

/-- Settles O4: the step of a command word and the step of a thread that carries on. -/
theorem stepRunsDecodedInstruction : Obligations.StepRunsDecodedInstruction :=
  ⟨fun _ _ _ _ _ hs ha hd => step_cmd hs ha hd, fun _ _ _ _ _ hs hi hq => step_run hs hi hq⟩

/-! ### A command word that was placed -/

theorem placeCommand_interrupt {w : Word} {i : Instr} (hd : decode w = .instr i) (hc : opContext i = .interrupt)
    (s : State) : placeCommand w s = { s.heard with sched := .cmd .interrupt w :: s.sched } := by
  unfold placeCommand
  rw [hd]
  dsimp only
  rw [hc]

theorem placeCommand_thread {w : Word} {i : Instr} (hd : decode w = .instr i) (hc : opContext i ≠ .interrupt)
    (s : State) :
    placeCommand w s = { s with irq := none, sched := .cmd (.thread (freshThread s.seqs)) w :: s.sched } := by
  unfold placeCommand
  rw [hd]
  dsimp only
  split
  · next h => exact absurd h hc
  · rfl
  · rfl

/-- A handler operation that was placed may be issued, since the sources are on. -/
theorem step_placeCommand_interrupt {w : Word} {i : Instr} (hd : decode w = .instr i)
    (hc : opContext i = .interrupt) (s : State) :
    step (placeCommand w s) = exec i { s.heard with sched := s.sched, agent := .interrupt } := by
  rw [placeCommand_interrupt hd hc]
  have hh : s.heard.silenced = false := s.heard_silenced
  exact step_cmd rfl (congrArg not hh) hd

/-- Any other operation that was placed may be issued, since its thread is new and no entry is in progress. -/
theorem step_placeCommand_thread {w : Word} {i : Instr} (hd : decode w = .instr i) (hc : opContext i ≠ .interrupt)
    (s : State) :
    step (placeCommand w s) = exec i { s with irq := none, agent := .thread (freshThread s.seqs) } := by
  rw [placeCommand_thread hd hc]
  exact step_cmd rfl (by simp [mayIssue, seqGet_freshThread]) hd

/-- Settles O5: by the context of the decoded operation. -/
theorem placedCommandRunsNext : Obligations.PlacedCommandRunsNext := by
  intro s w i hw
  have hd := decodeTableWord_eq_some_iff.mp hw
  cases i with
  | qpush | evtxc | evrxa | evsts =>
    refine (step_placeCommand_interrupt hd rfl s).trans ?_
    rw [State.heard_eq]
  | _ => exact step_placeCommand_thread hd nofun s

/-! ### The write of CMD that begins a sequence -/

/-- Settles O31: the checks pass in either session state, and the thread has nothing in progress. -/
theorem sequencesBegin : Obligations.SequencesBegin := by
  intro s t ha hq
  have hcur : s.curSeq = none := (State.curSeq_thread ha).trans hq
  have hadm : admits .thread s.agent = true := by simp [ha]
  simp only [exec, execStart, execStop, execSend, execReceive, hcur, ← State.putSeq_eq ha]
  exact ⟨guardOp_pass _ hadm nofun, guardOp_pass _ hadm nofun, guardOp_pass _ hadm nofun, guardOp_pass _ hadm nofun⟩

end Sys2Proof.Machine

/-! SUPPORT. The timing calculator (40_timing_calculator): what its search finds, what the split comes to, and what TCALC
answers (R131 to R145). -/

namespace Sys2Proof.Machine

/-! ### The search -/

theorem LargestSum.unique {pbs top a b : Nat} (ha : LargestSum pbs top a) (hb : LargestSum pbs top b) : a = b := by
  obtain ⟨-, hat, had, hamax⟩ := ha
  obtain ⟨-, hbt, hbd, hbmax⟩ := hb
  rcases Nat.lt_trichotomy a b with hlt | heq | hgt
  · exact absurd hbd (hamax b hbt hlt)
  · exact heq
  · exact absurd had (hbmax a hat hgt)

theorem searchSum_eq_some_iff {pbs top sum : Nat} : searchSum pbs top = some sum ↔ LargestSum pbs top sum := by
  refine ⟨searchSum_some, fun h => ?_⟩
  cases hs : searchSum pbs top with
  | none =>
    obtain ⟨h3, htop, hdvd, -⟩ := h
    exact absurd hdvd (searchSum_none hs sum htop h3)
  | some n => rw [(searchSum_some hs).unique h]

theorem searchSum_eq_none {pbs top : Nat} (h : ∀ n ≤ top, 3 ≤ n → ¬(1 + n) ∣ pbs) : searchSum pbs top = none := by
  cases hs : searchSum pbs top with
  | none => rfl
  | some n =>
    obtain ⟨h3, htop, hdvd, -⟩ := searchSum_some hs
    exact absurd hdvd (h n htop h3)

theorem maxSum_eq_topSum (rate : Nat) : maxSum rate = topSum rate :=
  apply_ite (· - 1) (1000000 ≤ rate) 10 17

theorem topSum_le (rate : Nat) : topSum rate ≤ 16 := by
  unfold topSum
  split <;> decide

theorem topSum_of_fast {rate : Nat} (h : 1000000 ≤ rate) : topSum rate = 9 := if_pos h

/-! ### The split -/

/-- The split selected for the `sum` found is the table's row (40_timing R141). -/
theorem LargestSum.selected_mem_splitTable {pbs rate sum : Nat} (h : LargestSum pbs (topSum rate) sum) :
    (sum, selectBs1 sum, sum - selectBs1 sum) ∈ splitTable := by
  have rows : ∀ n ≤ 16, 3 ≤ n → (n, selectBs1 n, n - selectBs1 n) ∈ splitTable := by decide
  obtain ⟨h3, htop, -⟩ := h
  exact rows sum (htop.trans (topSum_le rate)) h3

/-- Every row of the table splits its `sum`, with the segments and the sample point in range (40_timing R145 b, e). -/
theorem splitTable_row {sum bs1 bs2 : Nat} (h : (sum, bs1, bs2) ∈ splitTable) :
    bs1 + bs2 = sum ∧ 2 ≤ bs1 ∧ bs1 ≤ 14 ∧ (bs2 = 1 ∨ bs2 = 2) ∧
      750 ≤ (1000 * (1 + bs1)) / (1 + bs1 + bs2) ∧ (1000 * (1 + bs1)) / (1 + bs1 + bs2) ≤ 900 := by
  have rows : ∀ r ∈ splitTable, r.2.1 + r.2.2 = r.1 ∧ 2 ≤ r.2.1 ∧ r.2.1 ≤ 14 ∧ (r.2.2 = 1 ∨ r.2.2 = 2) ∧
      750 ≤ (1000 * (1 + r.2.1)) / (1 + r.2.1 + r.2.2) ∧ (1000 * (1 + r.2.1)) / (1 + r.2.1 + r.2.2) ≤ 900 := by
    decide
  exact rows _ h

/-! ### The calculation -/

/-- Once `sum` is chosen the range test of the split never fails, and the reconstruction divides by `pbs` again
(40_timing R138, R142). -/
theorem timingFrom_eq {clk rate pbs sum : Nat} (h : LargestSum pbs (topSum rate) sum) :
    timingFrom clk rate pbs sum =
      if pbs / (1 + sum) < 1 ∨ 1024 < pbs / (1 + sum) then .invalidBitRate
      else if clk / pbs ≠ rate then .logic
      else .ok (timingsOf (pbs / (1 + sum)) (selectBs1 sum) (sum - selectBs1 sum)) := by
  obtain ⟨hsum, hlo, hhi, hbs2, -⟩ := splitTable_row h.selected_mem_splitTable
  obtain ⟨-, -, hdvd, -⟩ := h
  have hrange : ¬(selectBs1 sum < 1 ∨ 16 < selectBs1 sum ∨ sum - selectBs1 sum < 1 ∨ 8 < sum - selectBs1 sum) := by
    omega
  have hpbs : pbs / (1 + sum) * (1 + selectBs1 sum + (sum - selectBs1 sum)) = pbs := by
    rw [Nat.add_assoc, hsum, Nat.div_mul_cancel hdvd]
  simp only [timingFrom, if_neg hrange, hpbs]

theorem timingCalc_zero (clk : Nat) : timingCalc clk 0 = .invalidBitRate := if_pos rfl

theorem timingCalc_of_no_sum {clk rate : Nat} (h : ∀ n ≤ topSum rate, 3 ≤ n → ¬(1 + n) ∣ clk / rate) :
    timingCalc clk rate = .invalidBitRate := by
  unfold timingCalc
  rw [maxSum_eq_topSum, searchSum_eq_none h]
  exact ite_self _

/-- TCALC's result as R142 says it depends on its operands: by `pbs`, its largest dividing `sum`, and the
reconstruction. -/
theorem timingCalc_of_largestSum {clk rate sum : Nat} (hr : rate ≠ 0)
    (h : LargestSum (clk / rate) (topSum rate) sum) :
    timingCalc clk rate =
      if clk / rate / (1 + sum) < 1 ∨ 1024 < clk / rate / (1 + sum) then .invalidBitRate
      else if clk / (clk / rate) ≠ rate then .logic
      else .ok (timingsOf (clk / rate / (1 + sum)) (selectBs1 sum) (sum - selectBs1 sum)) := by
  unfold timingCalc
  rw [if_neg hr, maxSum_eq_topSum, searchSum_eq_some_iff.mpr h]
  exact timingFrom_eq h

/-- The widths of `R_TIM` hold the timings (40_timing R140). -/
theorem timingsOf_toNat {prescaler bs1 bs2 : Nat} (hp : prescaler ≤ 1024) (h₁ : bs1 ≤ 16) (h₂ : bs2 ≤ 8) :
    (timingsOf prescaler bs1 bs2).prescaler.toNat = prescaler ∧ (timingsOf prescaler bs1 bs2).bs1.toNat = bs1 ∧
      (timingsOf prescaler bs1 bs2).bs2.toNat = bs2 :=
  ⟨Nat.mod_eq_of_lt (by omega), Nat.mod_eq_of_lt (by omega), Nat.mod_eq_of_lt (by omega)⟩

/-- What an OK says about the operands and the timings: the split in `R_TIM` is a row of the table. -/
theorem timingCalc_ok {clk rate : Nat} {tim : Timings} (h : timingCalc clk rate = .ok tim) :
    ∃ sum, LargestSum (clk / rate) (topSum rate) sum ∧ clk / (clk / rate) = rate ∧
      1 ≤ tim.prescaler.toNat ∧ tim.prescaler.toNat ≤ 1024 ∧ tim.prescaler.toNat = clk / rate / (1 + sum) ∧
      (sum, tim.bs1.toNat, tim.bs2.toNat) ∈ splitTable := by
  have hr : rate ≠ 0 := by
    rintro rfl
    rw [timingCalc_zero] at h
    cases h
  cases hs : searchSum (clk / rate) (topSum rate) with
  | none =>
    rw [timingCalc_of_no_sum (searchSum_none hs)] at h
    cases h
  | some sum =>
    have hsum := searchSum_some hs
    rw [timingCalc_of_largestSum hr hsum] at h
    split at h
    · cases h
    · next hp =>
      split at h
      · cases h
      · next hrec =>
        cases h
        have hrow := hsum.selected_mem_splitTable
        obtain ⟨-, -, hbs1, hbs2, -⟩ := splitTable_row hrow
        obtain ⟨e, e₁, e₂⟩ := timingsOf_toNat (prescaler := clk / rate / (1 + sum)) (by omega)
          (hbs1.trans (by decide)) (show sum - selectBs1 sum ≤ 8 by omega)
        rw [e, e₁, e₂]
        exact ⟨sum, hsum, not_not.mp hrec, by omega, by omega, rfl, hrow⟩

/-! ### The operation -/

@[simp] theorem State.res_drawn (s : State) : s.drawn.res = s.res := rfl

/-- TCALC passes the checks in every context and session (40_timing R130). -/
theorem exec_tcalc (s : State) :
    exec .tcalc s = .next (s.setRes { s.res with
      status := (timingCalc s.ops.clk.toNat s.ops.rate.toNat).code.code
      tim := (timingCalc s.ops.clk.toNat s.ops.rate.toNat).timings (Config.freeTimings s.freeIdx) }).drawn :=
  guardOp_pass (i := .tcalc) (s := s) _ rfl nofun

theorem exec_tcalc_of_eq {s : State} {r : TimResult} (h : timingCalc s.ops.clk.toNat s.ops.rate.toNat = r) :
    exec .tcalc s = .next (s.setRes { s.res with
      status := r.code.code, tim := r.timings (Config.freeTimings s.freeIdx) }).drawn :=
  h ▸ exec_tcalc s

theorem TimResult.eq_ok_of_code {r : TimResult} (h : r.code.code = 0x00) : ∃ tim, r = .ok tim := by
  cases r with
  | ok tim => exact ⟨tim, rfl⟩
  | invalidBitRate => exact absurd h (by decide)
  | logic => exact absurd h (by decide)

theorem exec_tcalc_ok {s t : State} (h : exec .tcalc s = .next t) (hok : t.res.status = 0x00) :
    timingCalc s.ops.clk.toNat s.ops.rate.toNat = .ok t.res.tim := by
  rw [exec_tcalc] at h
  cases h
  rw [State.res_drawn, State.res_setRes] at hok ⊢
  obtain ⟨tim, hcalc⟩ := TimResult.eq_ok_of_code hok
  rw [hcalc]
  rfl

/-- Settles O9: the search finds `sum`, and the split of the table reconstructs `pbs`. -/
theorem tcalcFindsTimings : Obligations.TcalcFindsTimings := by
  intro s sum hrate rate pbs hsum hlo hhi
  have hr : rate ≠ 0 := fun h => hrate (BitVec.eq_of_toNat_eq h)
  have hp : ¬(pbs / (1 + sum) < 1 ∨ 1024 < pbs / (1 + sum)) := by omega
  have hcalc := timingCalc_of_largestSum hr hsum
  rw [if_neg hp] at hcalc
  refine ⟨fun hrec => ?_, fun hrec => ?_⟩
  · exact ⟨_, _, hsum.selected_mem_splitTable, exec_tcalc_of_eq (hcalc.trans (if_neg (not_not.mpr hrec)))⟩
  · exact ⟨_, exec_tcalc_of_eq (hcalc.trans (if_pos hrec))⟩

/-- Settles O10: each of the three conditions makes the calculation answer INVALID_BIT_RATE. -/
theorem tcalcRejectsRates : Obligations.TcalcRejectsRates := by
  intro s rate pbs h
  suffices hcalc : timingCalc s.ops.clk.toNat rate = .invalidBitRate from ⟨_, exec_tcalc_of_eq hcalc⟩
  by_cases hr : rate = 0
  · rw [hr, timingCalc_zero]
  · rcases h with h | h | ⟨sum, hsum, hp⟩
    · exact absurd h hr
    · exact timingCalc_of_no_sum h
    · exact (timingCalc_of_largestSum hr hsum).trans (if_pos hp)

/-- Settles O11: the timings of an OK are the largest dividing `sum`, split by a row of the table. -/
theorem tcalcPostconditions : Obligations.TcalcPostconditions := by
  intro s t hexec hok clk rate p bs1 bs2 sp
  obtain ⟨sum, ⟨h3, htop, hdvd, -⟩, hrec, hlo, hhi, (hp : p = clk / rate / (1 + sum)), hrow⟩ :=
    timingCalc_ok (exec_tcalc_ok hexec hok)
  obtain ⟨hsum, h₁lo, h₁hi, h₂, hsplo, hsphi⟩ := splitTable_row hrow
  have h16 : sum ≤ 16 := htop.trans (topSum_le _)
  have hpbs : p * (1 + bs1 + bs2) = clk / rate := by
    rw [Nat.add_assoc, hsum, hp, Nat.div_mul_cancel hdvd]
  refine ⟨hpbs ▸ hrec, hsphi, by omega, ⟨by omega, by omega, fun hfast => ?_⟩, hsplo, h₂, h₁lo, h₁hi⟩
  rw [topSum_of_fast hfast] at htop
  omega

end Sys2Proof.Machine

/-! SUPPORT. The priority arbiter (41_priority_arbiter): the order of the arbitration keys, what CANACC makes of it, and
what MBLOAD loads or refuses (R161 to R176). -/

namespace Sys2Proof

/-! ### The arbitration key as a number -/

theorem toNat_append_eq_add {m n : Nat} (x : BitVec m) (y : BitVec n) :
    (x ++ y).toNat = x.toNat * 2 ^ n + y.toNat := by
  rw [BitVec.toNat_append, ← Nat.shiftLeft_add_eq_or_of_lt y.isLt, Nat.shiftLeft_eq]

theorem toNat_bool_injective : Function.Injective Bool.toNat := by decide

/-- The identifier bits of an extended frame below the leading eleven. -/
def Frame.low18 (f : Frame) : BitVec 18 := f.id.extractLsb' 0 18

theorem Frame.toNat_mid_of_std {f : Frame} (h : f.ext = false) : f.mid.toNat = f.arb11.toNat := by
  have hmid : f.mid = stdIdent f.id := if_neg (by simp [h])
  have harb : f.arb11 = f.id.extractLsb' 0 11 := if_neg (by simp [h])
  rw [hmid, harb, stdIdent, toNat_append_eq_add, BitVec.toNat_zero, Nat.zero_mul, Nat.zero_add]

/-- The leading eleven bits of an extended identifier stand above the other eighteen (30_encoding R92). -/
theorem Frame.toNat_mid_of_ext {f : Frame} (h : f.ext = true) :
    f.mid.toNat = f.arb11.toNat * 2 ^ 18 + f.low18.toNat := by
  have hsplit : f.id.extractLsb' 18 11 ++ f.id.extractLsb' 0 18 = f.id.extractLsb' 0 29 :=
    BitVec.extractLsb'_append_extractLsb'_eq_extractLsb' rfl
  rw [← toNat_append_eq_add, Frame.mid, Frame.arb11, Frame.low18, if_pos h, if_pos h, hsplit]

theorem Frame.toNat_key_of_std {f : Frame} (h : f.ext = false) :
    f.key.toNat = f.arb11.toNat * 2 ^ 21 + f.rtr.toNat * 2 ^ 20 := by
  simp only [Frame.key, h, Bool.false_eq_true, if_false, toNat_append_eq_add, BitVec.toNat_ofBool, BitVec.toNat_ofNat]
  omega

theorem Frame.toNat_key_of_ext {f : Frame} (h : f.ext = true) :
    f.key.toNat = f.arb11.toNat * 2 ^ 21 + 3 * 2 ^ 19 + f.low18.toNat * 2 + f.rtr.toNat := by
  simp only [Frame.key, h, if_true, toNat_append_eq_add, BitVec.toNat_ofBool, BitVec.toNat_ofNat, Frame.low18]
  omega

/-- Bit 19 of the key is the format. -/
theorem Frame.toNat_key_bit19 (f : Frame) : f.key.toNat / 2 ^ 19 % 2 = f.ext.toNat := by
  have hrtr := f.rtr.toNat_le
  cases h : f.ext with
  | false => rw [Frame.toNat_key_of_std h, Bool.toNat_false]; omega
  | true => rw [Frame.toNat_key_of_ext h, Bool.toNat_true]; omega

/-! ### The order of the keys -/

/-- A standard frame's key is below an extended one's unless its leading bits are above (41_priority R162). -/
theorem Frame.key_lt_iff_of_std_ext {a b : Frame} (ha : a.ext = false) (hb : b.ext = true) :
    a.key < b.key ↔ a.arb11 ≤ b.arb11 := by
  have hrtr := a.rtr.toNat_le
  have hrtr' := b.rtr.toNat_le
  rw [BitVec.lt_def, BitVec.le_def, Frame.toNat_key_of_std ha, Frame.toNat_key_of_ext hb]
  omega

/-- An extended frame's key is below a standard one's only by its leading bits (41_priority R162). -/
theorem Frame.key_lt_iff_of_ext_std {a b : Frame} (ha : a.ext = true) (hb : b.ext = false) :
    a.key < b.key ↔ a.arb11 < b.arb11 := by
  have hrtr := a.rtr.toNat_le
  have hrtr' := b.rtr.toNat_le
  rw [BitVec.lt_def, BitVec.lt_def, Frame.toNat_key_of_ext ha, Frame.toNat_key_of_std hb]
  omega

/-- In one format the key orders by the masked identifier, then the RTR flag (41_priority R163, R164). -/
theorem Frame.key_lt_iff_of_ext_eq {a b : Frame} (h : a.ext = b.ext) :
    a.key < b.key ↔ a.mid < b.mid ∨ (a.mid = b.mid ∧ a.rtr.toNat < b.rtr.toNat) := by
  have hrtr := a.rtr.toNat_le
  have hrtr' := b.rtr.toNat_le
  rw [BitVec.lt_def, BitVec.lt_def, ← BitVec.toNat_inj]
  cases hb : b.ext with
  | false =>
    have ha := h.trans hb
    rw [Frame.toNat_key_of_std ha, Frame.toNat_key_of_std hb, Frame.toNat_mid_of_std ha, Frame.toNat_mid_of_std hb]
    omega
  | true =>
    have ha := h.trans hb
    rw [Frame.toNat_key_of_ext ha, Frame.toNat_key_of_ext hb, Frame.toNat_mid_of_ext ha, Frame.toNat_mid_of_ext hb]
    omega

/-- The key holds the format, the masked identifier and the RTR flag, and nothing else (41_priority R165, R166). -/
theorem Frame.key_eq_iff {a b : Frame} : a.key = b.key ↔ (a.ext, a.mid, a.rtr) = (b.ext, b.mid, b.rtr) := by
  have hext (h : a.key = b.key) : a.ext = b.ext :=
    toNat_bool_injective (by rw [← Frame.toNat_key_bit19, ← Frame.toNat_key_bit19, h])
  have hrest (h : a.ext = b.ext) : a.key = b.key ↔ a.mid = b.mid ∧ a.rtr = b.rtr := by
    have hab := Frame.key_lt_iff_of_ext_eq h
    have hba := Frame.key_lt_iff_of_ext_eq h.symm
    rw [BitVec.lt_def, BitVec.lt_def, ← BitVec.toNat_inj] at hab hba
    rw [← BitVec.toNat_inj, ← BitVec.toNat_inj, ← toNat_bool_injective.eq_iff]
    omega
  rw [Prod.mk.injEq, Prod.mk.injEq]
  exact ⟨fun h => ⟨hext h, (hrest (hext h)).mp h⟩, fun ⟨h, h'⟩ => (hrest h).mpr h'⟩

/-- The key holds neither the ERR bit nor the data length code (41_priority R166). -/
theorem Frame.key_flipErr (f : Frame) (dlc : BitVec 4) :
    Frame.key { f with id := f.id ^^^ 0x20000000#32, dlc := dlc } = f.key := by
  simp [Frame.key, Frame.ext, Frame.rtr, Frame.arb11, BitVec.extractLsb'_xor]

theorem Frame.unsupported_iff {f : Frame} : f.unsupported = true ↔ f.id.getLsbD 29 = true ∨ 8 < f.dlc.toNat := by
  rw [Frame.unsupported, Bool.or_eq_true, decide_eq_true_iff, Frame.err]

theorem Frame.not_unsupported {f : Frame} (herr : f.id.getLsbD 29 = false) (hdlc : f.dlc.toNat ≤ 8) :
    f.unsupported = false := by
  rw [Frame.unsupported, Frame.err, herr, Bool.false_or, decide_eq_false_iff_not]
  exact Nat.not_lt.mpr hdlc

end Sys2Proof

namespace Sys2Proof.Machine

/-! ### The comparator -/

theorem higherPriority_of_ext_ne {a b : Frame} (h : a.ext ≠ b.ext) :
    higherPriority a b = if a.arb11 ≠ b.arb11 then decide (a.arb11 < b.arb11) else b.ext :=
  if_pos h

theorem higherPriority_of_ext_eq {a b : Frame} (h : a.ext = b.ext) :
    higherPriority a b = if a.mid = b.mid ∧ a.rtr ≠ b.rtr then b.rtr else decide (a.mid < b.mid) :=
  if_neg (not_not.mpr h)

/-- The three steps of the comparator come to one comparison of keys (41_priority R165). -/
theorem higherPriority_eq_key_lt (a b : Frame) : higherPriority a b = decide (a.key < b.key) := by
  rw [Bool.eq_iff_iff, decide_eq_true_iff]
  by_cases h : a.ext = b.ext
  · rw [higherPriority_of_ext_eq h, Frame.key_lt_iff_of_ext_eq h]
    by_cases hm : a.mid = b.mid
    · cases ha : a.rtr <;> cases hb : b.rtr <;> simp [hm]
    · simp [hm]
  · rw [higherPriority_of_ext_ne h]
    cases hb : b.ext with
    | false =>
      rw [Frame.key_lt_iff_of_ext_std (by simpa [hb] using h) hb]
      by_cases hp : a.arb11 = b.arb11 <;> simp [hp]
    | true =>
      rw [Frame.key_lt_iff_of_std_ext (by simpa [hb] using h) hb]
      by_cases hp : a.arb11 = b.arb11
      · simp [hp]
      · rw [if_pos hp, decide_eq_true_iff]
        exact ⟨BitVec.le_of_lt, fun hle => BitVec.lt_of_le_ne hle hp⟩

theorem exec_pricmp (s : State) :
    exec .pricmp s = .next (s.setRes { s.res with status := 0x00, flag := higherPriority s.ops.frm s.ops.frmB }) :=
  guardOp_pass (i := .pricmp) (s := s) _ rfl nofun

theorem exec_pricmp_of_eq {s : State} {r : Bool} (h : higherPriority s.ops.frm s.ops.frmB = r) :
    exec .pricmp s = .next (s.setRes { s.res with status := 0x00, flag := r }) :=
  h ▸ exec_pricmp s

/-- Settles O12: each clause is one path of the comparator. -/
theorem pricmpFollowsSteps : Obligations.PricmpFollowsSteps := by
  intro s a b answer
  refine ⟨fun hx hp => exec_pricmp_of_eq ?_, fun hx hp => exec_pricmp_of_eq ?_, fun hx hm hr => exec_pricmp_of_eq ?_,
    fun hx hm => exec_pricmp_of_eq ?_, fun hx hm hr => exec_pricmp_of_eq ?_⟩
  · exact (higherPriority_of_ext_ne hx).trans (if_pos hp)
  · rw [higherPriority_of_ext_ne hx, if_neg (not_not.mpr hp)]
    exact Bool.eq_not.mpr hx.symm
  · rw [higherPriority_of_ext_eq hx, if_pos ⟨hm, hr⟩]
    exact Bool.eq_not.mpr hr.symm
  · exact (higherPriority_of_ext_eq hx).trans (if_neg fun h => hm h.1)
  · rw [higherPriority_of_ext_eq hx, if_neg fun h => h.2 hr, decide_eq_false_iff_not]
    exact hm ▸ BitVec.lt_irrefl _

/-- Settles O13: the comparator is the comparison of the keys. -/
theorem pricmpComparesKeys : Obligations.PricmpComparesKeys :=
  fun _ => exec_pricmp_of_eq (higherPriority_eq_key_lt _ _)

/-- Settles O14: the order of the keys is strict and total, and the key is the triple. -/
theorem priorityIsStrictTotalOrder : Obligations.PriorityIsStrictTotalOrder := by
  simp only [Obligations.PriorityIsStrictTotalOrder, higherPriority_eq_key_lt, ← Frame.key_eq_iff, decide_eq_true_iff,
    decide_eq_false_iff_not, ← decide_not, decide_eq_decide, ne_eq]
  refine ⟨fun f => BitVec.lt_irrefl _, fun f g h => BitVec.lt_trans, fun f g h => h ▸ BitVec.lt_irrefl _, fun f g h => ?_⟩
  rw [BitVec.not_lt]
  exact ⟨BitVec.le_of_lt, fun hle => BitVec.lt_of_le_ne hle h⟩

/-! ### CANACC -/

theorem blocks_eq_false_iff {f : Frame} {sl : Slot} :
    blocks f sl = false ↔ (sl.pending = true → f.key < sl.frame.key) := by
  cases hp : sl.pending <;> simp [blocks, hp, higherPriority_eq_key_lt]

/-- The two fast paths on CTRL's flags, and otherwise the candidate's key against every pending frame's (41_priority R169,
R170). -/
theorem canAccept_iff {f : Frame} {tme : BitVec 3} {slots : Vector Slot 3} :
    canAccept f tme slots = true ↔
      tme = 0b111#3 ∨ (tme ≠ 0b000#3 ∧ ∀ i : Fin 3, slots[i].pending = true → f.key < slots[i].frame.key) := by
  by_cases hall : tme = 0b111#3
  · simp [canAccept, hall]
  by_cases hnone : tme = 0b000#3
  · simp [canAccept, hnone]
  simp only [← blocks_eq_false_iff]
  simp [canAccept, hall, hnone, Fin.forall_fin_succ, and_assoc]

theorem exec_canacc {s : State} {t : Nat} (ha : s.agent = .thread t) (hs : s.sess = .running) :
    exec .canacc s = .next (s.setRes { s.res with
      status := 0x00, flag := canAccept s.ops.frm s.ctrl.status.tme s.drv.slots }) :=
  guardOp_pass (i := .canacc) _ (by simp [opContext, ha]) fun _ => hs

theorem exec_canacc_of_eq {s : State} {t : Nat} {r : Bool} (ha : s.agent = .thread t) (hs : s.sess = .running)
    (h : canAccept s.ops.frm s.ctrl.status.tme s.drv.slots = r) :
    exec .canacc s = .next (s.setRes { s.res with status := 0x00, flag := r }) :=
  h ▸ exec_canacc ha hs

/-- Settles O15: the flag is the acceptance test, read in keys. -/
theorem canaccDecides : Obligations.CanaccDecides :=
  fun _ _ ha hs => exec_canacc_of_eq ha hs (Bool.eq_iff_iff.mpr (canAccept_iff.trans decide_eq_true_iff.symm))

/-- CANACC reads nothing of the candidate that the key does not hold (41_priority R166). -/
theorem canAccept_congr {f g : Frame} (h : f.key = g.key) (tme : BitVec 3) (slots : Vector Slot 3) :
    canAccept f tme slots = canAccept g tme slots := by
  rw [Bool.eq_iff_iff, canAccept_iff, canAccept_iff, h]

/-! ### MBLOAD -/

theorem exec_mbload_of_eq {s u : State} {t : Nat} {r : ResultCode} (ha : s.agent = .thread t) (hs : s.sess = .running)
    (h : loadMailbox s.ops.frm s = (r, u)) : exec .mbload s = .next (u.setStatus r.code) := by
  refine (guardOp_pass (i := .mbload) _ (by simp [opContext, ha]) fun _ => hs).trans ?_
  rw [h]
  rfl

theorem loadMailbox_of_unsupported {f : Frame} (h : f.unsupported = true) (s : State) :
    loadMailbox f s = (.unsupportedFrame, s) :=
  if_pos h

theorem loadMailbox_of_no_free {f : Frame} {s : State} (h : f.unsupported = false)
    (hi : firstFree s.ctrl.status.tme = none) : loadMailbox f s = (.noFreeSlot, s) := by
  simp [loadMailbox, h, hi]

theorem loadMailbox_of_free {f : Frame} {s : State} {i : Fin 3} (h : f.unsupported = false)
    (hi : firstFree s.ctrl.status.tme = some i) : loadMailbox f s = (.ok, loadSlot i f s) := by
  simp [loadMailbox, h, hi]

/-- The statistic is the maximum of itself and the slot's number (41_priority R173). -/
theorem loadSlot_peakMb (i : Fin 3) (f : Frame) (s : State) :
    (loadSlot i f s).drv.peakMb.toNat = max s.drv.peakMb.toNat i.val := by
  unfold loadSlot
  dsimp only
  split
  · rw [BitVec.toNat_ofNat]
    omega
  · omega

/-- A programmed slot reports busy, and the others what they did (60_exceptions R309 CP1). -/
theorem getLsbD_setPortBit_false (v : BitVec 3) (i j : Fin 3) :
    (setPortBit v i false).getLsbD j.val = (v.getLsbD j.val && decide (j ≠ i)) := by
  refine (portBit_setPortBit v i j false).trans ?_
  by_cases hj : j = i <;> simp [hj, portBit]

/-- Settles O16: the shape test passes, the search finds the slot, and the slot is loaded. -/
theorem mbloadLoadsFirstFreeSlot : Obligations.MbloadLoadsFirstFreeSlot := by
  intro s t i ha hs herr hdlc hi hlow
  have hload := loadMailbox_of_free (Frame.not_unsupported herr hdlc) (firstFree_eq_some.mpr ⟨hi, hlow⟩)
  exact ⟨_, _, getLsbD_setPortBit_false _ i, loadSlot_peakMb i s.ops.frm s, exec_mbload_of_eq ha hs hload⟩

/-- Settles O17: the shape test comes first, the slot search second, and CANACC compares keys alone. -/
theorem mbloadRefusals : Obligations.MbloadRefusals := by
  intro s t ha hs
  refine ⟨fun hf => ?_, fun herr hdlc htme => ?_, fun u dlc hu => ?_⟩
  · exact exec_mbload_of_eq ha hs (loadMailbox_of_unsupported (Frame.unsupported_iff.mpr hf) s)
  · exact exec_mbload_of_eq ha hs
      (loadMailbox_of_no_free (Frame.not_unsupported herr hdlc) (firstFree_eq_none.mpr htme))
  · subst hu
    exact ⟨_, exec_canacc ha hs, exec_canacc_of_eq ha hs (canAccept_congr (Frame.key_flipErr _ _) _ _)⟩

end Sys2Proof.Machine

/-! SUPPORT. The operations on the receive queue (42_receive_queue R190 to R195): what a push leaves, whatever the length,
and the next state of QPUSH, QPOP and QRESET. -/

namespace Sys2Proof.Machine

/-! ### A push, whatever the length -/

/-- A push appends, after the oldest entry of a full queue is gone (42_receive_queue R191). -/
theorem RxQueue.contents_push {q : RxQueue} (h : q.Inv) (e : ReceivedFrame) :
    (q.push e).contents = (if q.len.toNat = 16 then q.contents.tail else q.contents) ++ [e] := by
  split
  · next hfull => exact RxQueue.contents_push_of_full h hfull e
  · next hroom => exact RxQueue.contents_push_of_lt h (Nat.lt_of_le_of_ne h.1 hroom) e

/-- The overflow counter counts the pushes into a full queue, and saturates (10_state R31). -/
theorem RxQueue.ovf_push_toNat {q : RxQueue} (h : q.Inv) (e : ReceivedFrame) :
    (q.push e).ovf.toNat = if q.len.toNat = 16 then min (q.ovf.toNat + 1) (2 ^ 32 - 1) else q.ovf.toNat := by
  split
  · next hfull => rw [RxQueue.push_of_full h hfull, satInc_toNat]
  · next hroom => rw [RxQueue.push_of_lt h (Nat.lt_of_le_of_ne h.1 hroom)]

/-- `rx_cnt` and `activity` tell real traffic, which is neither loopback nor failed (43_event_handlers R225). -/
theorem Driver.push_eq (free : Word) (e : ReceivedFrame) (d : Driver) :
    d.push free e = { d with
      rxq := d.rxq.push e, rxEv := true
      rxCnt := if !e.loopback && !e.failed then countUp free d.rxCnt else d.rxCnt
      activity := !e.loopback && !e.failed || d.activity } := by
  by_cases hreal : e.loopback = false ∧ e.failed = false
  · obtain ⟨hl, hf⟩ := hreal
    simp [Driver.push_real, hl, hf]
  · have hnot : (!e.loopback && !e.failed) = false := by simpa using hreal
    rw [Driver.push, if_neg hreal, hnot]
    rfl

/-- In a full queue the next entry to be written is the oldest (42_receive_queue R192). -/
theorem RxQueue.head_eq_tail_of_full {q : RxQueue} (h : q.Inv) (hl : q.len.toNat = 16) : q.head = q.tail := by
  obtain ⟨-, hhead⟩ := h
  have htail := q.tail.isLt
  exact BitVec.eq_of_toNat_eq (by omega)

theorem ringInc_eq_ite (i : BitVec 4) : ringInc i = if i = 15#4 then 0#4 else i + 1#4 := by
  revert i; decide

/-! ### The operations -/

/-- The status of results just written: one write of both. -/
theorem State.setStatus_setRes (c : Byte) (r : ResultRegs) (s : State) :
    (s.setRes r).setStatus c = s.setRes { r with status := c } := by
  rw [State.setStatus_eq, State.res_setRes]
  cases h : s.agent <;> simp [State.setRes, h]

theorem exec_qpush {s : State} (ha : s.agent = .interrupt) (hs : s.sess = .running) :
    exec .qpush s = .next (State.drawn (State.setStatus 0x00
      { s with drv := s.drv.push (Config.freeCount s.freeIdx) s.ops.entry })) :=
  guardOp_pass (i := .qpush) _ (by simp [opContext, ha]) fun _ => hs

theorem exec_qpop {s : State} {t : Nat} (ha : s.agent = .thread t) (hs : s.sess = .running) (hne : s.drv.rxq.len ≠ 0) :
    exec .qpop s = .next (State.setRes { s.res with status := 0x00, rxf := s.drv.rxq.oldest }
      (s.setQueue s.drv.rxq.popped)) := by
  refine (guardOp_pass (i := .qpop) _ (by simp [opContext, ha]) fun _ => hs).trans ?_
  rw [if_neg hne, finish_eq]
  exact congrArg _ (State.setStatus_setRes _ _ (s.setQueue s.drv.rxq.popped))

theorem exec_qreset {s : State} {t : Nat} (ha : s.agent = .thread t) (hs : s.sess = .running) :
    exec .qreset s = .next ((s.setQueue s.drv.rxq.cleared).setStatus 0x00) :=
  guardOp_pass (i := .qreset) _ (by simp [opContext, ha]) fun _ => hs

/-- Settles O21: the queue left is the cleared one. -/
theorem qresetClearsIndices : Obligations.QresetClearsIndices :=
  fun _ _ ha hs => exec_qreset ha hs

/-- Settles O18: the queue left is the push of the assembled entry, and the counter counts real traffic. -/
theorem qpushAppends : Obligations.QpushAppends := by
  intro s ha hs hq e real full
  refine ⟨s.drv.rxq.push e, if real then countUp (Config.freeCount s.freeIdx) s.drv.rxCnt else s.drv.rxCnt,
    RxQueue.push_inv hq e, ?_, ?_, fun hreal => ?_, fun hreal hwrap => ?_, ?_⟩
  · simpa only [full, decide_eq_true_eq] using RxQueue.contents_push hq e
  · simpa only [full, decide_eq_true_eq] using RxQueue.ovf_push_toNat hq e
  · exact if_neg (by simp [hreal])
  · exact (if_pos hreal).trans (countUp_of_ne hwrap)
  · rw [exec_qpush ha hs, Driver.push_eq]
    rfl

/-- Settles O19: the entry is written at `head`, which is `tail`, and both advance. -/
theorem fullPushReplacesOldest : Obligations.FullPushReplacesOldest := by
  intro q e h hlen
  have hl : q.len.toNat = 16 := by rw [hlen]; rfl
  have hht := RxQueue.head_eq_tail_of_full h hl
  have hcontents := RxQueue.contents_push_of_full h hl e
  rw [RxQueue.push_of_full h hl] at hcontents ⊢
  refine ⟨hht, congrArg ringInc hht, rfl, ringInc_eq_ite q.tail, fun k => ?_, hcontents⟩
  simp only [Fin.getElem_fin, Vector.getElem_set, hht, eq_comm]

/-- Settles O20: the entry returned is the oldest, and the queue left is the popped one. -/
theorem qpopReturnsOldest : Obligations.QpopReturnsOldest :=
  fun s _ ha hs hne =>
    ⟨s.drv.rxq.oldest, s.drv.rxq.popped, RxQueue.contents_eq_oldest_cons hne, rfl, rfl, rfl, rfl, exec_qpop ha hs hne⟩

end Sys2Proof.Machine

/-! SUPPORT. The event handlers and the waits (43_event_handlers R211 to R229): what each makes of Driver State and CTRL,
its next state, and what no handler does. -/

namespace Sys2Proof.Machine

open Host (Outcome)

/-! ### What the handlers make of Driver State and CTRL -/

/-- The loopback report of a slot, field by field (43_event_handlers R212, R225). -/
theorem Driver.report_fields (free : Word) (i : Fin 3) (failed : Bool) (ts : Tick) (d : Driver) :
    d.report free i failed ts = { d with
      rxq := if d.loopback && d.slots[i].pending then d.rxq.push ⟨d.slots[i].frame, true, failed, ts⟩ else d.rxq
      rxEv := d.loopback && d.slots[i].pending || d.rxEv } := by
  rw [Driver.report_eq]
  by_cases h : d.loopback = true ∧ d.slots[i].pending = true
  · rw [if_pos h, Bool.and_eq_true_iff.mpr h]
    rfl
  · rw [if_neg h, Bool.eq_false_iff.mpr fun hr => h (Bool.and_eq_true_iff.mp hr)]
    rfl

/-- EVTXC on Driver State, field by field (43_event_handlers R212, R213). -/
theorem Driver.txComplete_eq (free : Word) (i : Fin 3) (ok : Bool) (ts : Tick) (d : Driver) :
    d.txComplete free i ok ts = { d with
      rxq := if d.loopback && d.slots[i].pending then d.rxq.push ⟨d.slots[i].frame, true, !ok, ts⟩ else d.rxq
      slots := d.slots.set i ⟨false, d.slots[i].frame⟩
      txCnt := if ok then countUp free d.txCnt else d.txCnt
      activity := ok || d.activity
      rxEv := d.loopback && d.slots[i].pending || d.rxEv
      txEv := true } := by
  unfold Driver.txComplete
  rw [Driver.report_fields]
  cases ok <;> rfl

theorem Driver.txComplete_loopback (free : Word) (i : Fin 3) (ok : Bool) (ts : Tick) (d : Driver) :
    (d.txComplete free i ok ts).loopback = d.loopback := by rw [Driver.txComplete_eq]

/-- A standing overflow flag adds one to the overflow counter (43_event_handlers R216). -/
theorem Driver.countOverflow_eq (b : Bool) (d : Driver) :
    d.countOverflow b = { d with rxq := { d.rxq with ovf := if b then satInc d.rxq.ovf else d.rxq.ovf } } := by
  cases b <;> rfl

/-- EVRXA on Driver State: the frame is real traffic (43_event_handlers R215, R225). -/
theorem Driver.rxAvailable_eq (free : Word) (b : Bool) (m : RxMsg) (t : Tick) (d : Driver) :
    d.rxAvailable free b m t = { d with
      rxq := RxQueue.push ⟨frameOfMsg m, false, false, t⟩
        { d.rxq with ovf := if b then satInc d.rxq.ovf else d.rxq.ovf }
      rxEv := true, rxCnt := countUp free d.rxCnt, activity := true } := by
  unfold Driver.rxAvailable
  rw [Driver.push_real _ _ _ rfl rfl, Driver.countOverflow_eq]

theorem Driver.rxAvailable_loopback (free : Word) (b : Bool) (m : RxMsg) (t : Tick) (d : Driver) :
    (d.rxAvailable free b m t).loopback = d.loopback := by rw [Driver.rxAvailable_eq]

/-- A released head leaves the rest of its FIFO (60_exceptions R305). -/
theorem Ctrl.rxRelease_of_cons {c : Ctrl} {k : Fin 2} {m : RxMsg} {rest : List RxMsg}
    (h : c.status.fifo[k].entries = m :: rest) :
    c.rxRelease k = { c with status := { c.status with
      fifo := c.status.fifo.set k { c.status.fifo[k] with entries := rest } } } := by
  unfold Ctrl.rxRelease
  rw [h]
  rfl

/-- The last-error-code branch, field by field (43_event_handlers R222). -/
theorem Driver.recordError_eq (free : Word) (lec : BitVec 4) (d : Driver) :
    d.recordError free lec = { d with
      lastErr := if lec = 0 then d.lastErr else lec
      errCnt := if lec = 0 then d.errCnt else countUp free d.errCnt } := by
  unfold Driver.recordError
  by_cases h : lec = 0
  · rw [if_neg (not_not.mpr h), if_pos h, if_pos h]
  · rw [if_pos h, if_neg h, if_neg h]

/-! ### The bus-off branch -/

/-- The failed report a bus-off makes of slot `i`, if any (43_event_handlers R221). -/
def Driver.abortReport (ts : Tick) (d : Driver) (i : Fin 3) : Option ReceivedFrame :=
  if d.loopback && d.slots[i].pending then some ⟨d.slots[i].frame, true, true, ts⟩ else none

theorem Driver.abortReports_eq (d : Driver) (ts : Tick) :
    d.abortReports ts =
      (d.abortReport ts 0).toList ++ (d.abortReport ts 1).toList ++ (d.abortReport ts 2).toList := by
  cases h : d.loopback
  · simp [Driver.abortReports, Driver.abortReport, h]
  · simp [Driver.abortReports, Driver.abortReport, h, List.filterMap_eq_flatMap_toList]

/-- The branch for one slot: its report pushed, its pending flag cleared (43_event_handlers R220, R221). -/
theorem Driver.abortSlot_eq (free : Word) (ts : Tick) (i : Fin 3) (d : Driver) :
    d.abortSlot free ts i = { d with
      rxq := d.rxq.pushAll (d.abortReport ts i).toList
      slots := d.slots.set i ⟨false, d.slots[i].frame⟩
      rxEv := (d.abortReport ts i).isSome || d.rxEv } := by
  unfold Driver.abortSlot
  rw [Driver.report_fields]
  unfold Driver.abortReport
  cases d.loopback && d.slots[i].pending <;> rfl

theorem Driver.abortSlot_slot (free : Word) (ts : Tick) (i j : Fin 3) (d : Driver) :
    (d.abortSlot free ts i).slots[j] = if j = i then ⟨false, d.slots[i].frame⟩ else d.slots[j] := by
  rw [Driver.abortSlot_eq]
  simp [Vector.getElem_set, Fin.ext_iff, eq_comm]

/-- A slot's report does not depend on the slots served before it. -/
theorem Driver.abortReport_abortSlot {i j : Fin 3} (h : j ≠ i) (free : Word) (ts : Tick) (d : Driver) :
    (d.abortSlot free ts i).abortReport ts j = d.abortReport ts j := by
  unfold Driver.abortReport
  rw [Driver.abortSlot_slot, if_neg h, Driver.abortSlot_eq]

theorem RxQueue.pushAll_append (q : RxQueue) (l l' : List ReceivedFrame) :
    q.pushAll (l ++ l') = (q.pushAll l).pushAll l' :=
  List.foldl_append

/-- What EVSTS leaves of a slot: the frame, and the pending flag unless CTRL is at bus-off (43_event_handlers R221). -/
def Slot.afterStatus (off : Bool) (x : Slot) : Slot := ⟨x.pending && !off, x.frame⟩

theorem Slot.afterStatus_true (x : Slot) : x.afterStatus true = ⟨false, x.frame⟩ := by simp [Slot.afterStatus]

theorem Slot.map_afterStatus_false (v : Vector Slot 3) : v.map (Slot.afterStatus false) = v := by
  ext j hj
  simp [Slot.afterStatus]

/-- Every slot is served, so none stays pending (43_event_handlers R221). -/
theorem Driver.busOff_slots (free : Word) (ts : Tick) (d : Driver) :
    (d.busOff free ts).slots = d.slots.map (Slot.afterStatus true) := by
  have hslot (j : Fin 3) : (d.busOff free ts).slots[j] = ⟨false, d.slots[j].frame⟩ := by
    unfold Driver.busOff
    simp only [Driver.abortSlot_slot]
    fin_cases j <;> rfl
  refine Vector.ext fun j hj => ?_
  rw [Vector.getElem_map, Slot.afterStatus_true]
  exact hslot ⟨j, hj⟩

/-- The whole bus-off branch: `tx_ev` signalled, the reports pushed in slot order, no slot pending (43_event_handlers
R221). -/
theorem Driver.busOff_eq (free : Word) (ts : Tick) (d : Driver) :
    d.busOff free ts = { d with
      rxq := d.rxq.pushAll (d.abortReports ts)
      slots := d.slots.map (Slot.afterStatus true)
      rxEv := !(d.abortReports ts).isEmpty || d.rxEv
      txEv := true } := by
  rw [← Driver.busOff_slots free ts, Driver.abortReports_eq, RxQueue.pushAll_append, RxQueue.pushAll_append]
  have h₂ (x : Driver) : ((x.abortSlot free ts 0).abortSlot free ts 1).abortReport ts 2 = x.abortReport ts 2 := by
    rw [Driver.abortReport_abortSlot (by decide), Driver.abortReport_abortSlot (by decide)]
  have h₁ (x : Driver) : (x.abortSlot free ts 0).abortReport ts 1 = x.abortReport ts 1 :=
    Driver.abortReport_abortSlot (by decide) ..
  unfold Driver.busOff
  rw [Driver.abortSlot_eq _ _ 2, h₂, Driver.abortSlot_eq _ _ 1, h₁, Driver.abortSlot_eq _ _ 0]
  have hev : (!((d.abortReport ts 0).toList ++ (d.abortReport ts 1).toList ++ (d.abortReport ts 2).toList).isEmpty ||
      d.rxEv) = ((d.abortReport ts 2).isSome || ((d.abortReport ts 1).isSome ||
      ((d.abortReport ts 0).isSome || d.rxEv))) := by
    cases d.abortReport ts 0 <;> cases d.abortReport ts 1 <;> cases d.abortReport ts 2 <;> rfl
  rw [hev]
  rfl

/-- EVSTS on CTRL and Driver State, field by field (43_event_handlers R220). -/
theorem statusChange_eq (s : State) :
    statusChange s = { s with
      ctrl := { s.ctrl with status := { s.ctrl.status with
        errFlag := false, abrq := if s.ctrl.status.busOff then 0b111#3 else s.ctrl.status.abrq } }
      drv := { s.drv with
        rxq := s.drv.rxq.pushAll (if s.ctrl.status.busOff then s.drv.abortReports s.ops.ts else [])
        slots := s.drv.slots.map (Slot.afterStatus s.ctrl.status.busOff)
        rxEv := !(if s.ctrl.status.busOff then s.drv.abortReports s.ops.ts else []).isEmpty || s.drv.rxEv
        txEv := s.ctrl.status.busOff || s.drv.txEv
        lastErr := if s.ctrl.status.lec = 0 then s.drv.lastErr else s.ctrl.status.lec
        errCnt :=
          if s.ctrl.status.lec = 0 then s.drv.errCnt else countUp (Config.freeCount s.freeIdx) s.drv.errCnt } } := by
  unfold statusChange
  simp only [Driver.recordError_eq, Driver.busOff_eq, Ctrl.clearErrorFlag, Ctrl.abortAll]
  cases s.ctrl.status.busOff
  · rw [Slot.map_afterStatus_false]
    rfl
  · rfl

/-! ### The handlers' next states -/

theorem slotIndex_of_toNat_eq {idx : BitVec 2} {i : Fin 3} (h : idx.toNat = i.val) : slotIndex idx = some i := by
  obtain ⟨i, hi⟩ := i
  subst h
  exact dif_pos hi

theorem fifoIndex_of_toNat_eq {idx : BitVec 2} {k : Fin 2} (h : idx.toNat = k.val) : fifoIndex idx = some k := by
  obtain ⟨k, hk⟩ := k
  subst h
  exact dif_pos hk

/-- In interrupt context and a session, the checks of interrupt context's own operations pass. -/
theorem guardOp_of_interrupt {i : Instr} {s : State} (k : Outcome State Fault Refusal) (hi : opContext i = .interrupt)
    (ha : s.agent = .interrupt) (hs : s.sess = .running) : guardOp i s k = k :=
  guardOp_pass k (by simp [hi, ha]) fun _ => hs

section interrupt
variable {s : State} {idx : BitVec 2} {ok : Bool}

theorem exec_evtxc_of_slot (ha : s.agent = .interrupt) (hs : s.sess = .running) {i : Fin 3}
    (hi : slotIndex idx = some i) :
    exec (.evtxc idx ok) s = .next (State.drawn (State.setStatus 0x00
      { s with drv := s.drv.txComplete (Config.freeCount s.freeIdx) i ok s.ops.ts })) := by
  refine (guardOp_of_interrupt (i := .evtxc idx ok) _ rfl ha hs).trans ?_
  rw [hi]
  rfl

theorem exec_evtxc_of_no_slot (ha : s.agent = .interrupt) (hs : s.sess = .running) (hi : slotIndex idx = none) :
    exec (.evtxc idx ok) s = .next (s.setStatus 0xF3) := by
  refine (guardOp_of_interrupt (i := .evtxc idx ok) _ rfl ha hs).trans ?_
  rw [hi]
  rfl

theorem exec_evrxa_of_no_fifo (ha : s.agent = .interrupt) (hs : s.sess = .running) (hk : fifoIndex idx = none) :
    exec (.evrxa idx) s = .next (s.setStatus 0xF3) := by
  refine (guardOp_of_interrupt (i := .evrxa idx) _ rfl ha hs).trans ?_
  rw [hk]
  rfl

variable {k : Fin 2} {m : RxMsg} {rest : List RxMsg}

theorem exec_evrxa_of_nil (ha : s.agent = .interrupt) (hs : s.sess = .running) (hk : fifoIndex idx = some k)
    (he : s.ctrl.status.fifo[k].entries = []) : exec (.evrxa idx) s = .next (s.setStatus 0xF6) := by
  refine (guardOp_of_interrupt (i := .evrxa idx) _ rfl ha hs).trans ?_
  rw [hk]
  dsimp only
  rw [he]
  rfl

/-- With a head entry, EVRXA tests its data length code and then receives it (43_event_handlers R215, R218). -/
theorem exec_evrxa_of_cons (ha : s.agent = .interrupt) (hs : s.sess = .running) (hk : fifoIndex idx = some k)
    (he : s.ctrl.status.fifo[k].entries = m :: rest) :
    exec (.evrxa idx) s = .next (if 8 < m.dlc.toNat then s.setStatus 0xF5
      else State.drawn (State.setStatus 0x00 { s with
        drv := s.drv.rxAvailable (Config.freeCount s.freeIdx) s.ctrl.status.fifo[k].overflow m s.now
        ctrl := s.ctrl.rxRelease k })) := by
  refine (guardOp_of_interrupt (i := .evrxa idx) _ rfl ha hs).trans ?_
  rw [hk]
  dsimp only
  rw [he]
  dsimp only
  split <;> rfl

theorem exec_evsts (ha : s.agent = .interrupt) (hs : s.sess = .running) :
    exec .evsts s = .next (State.drawn (State.setStatus 0x00 (statusChange s))) :=
  guardOp_of_interrupt (i := .evsts) _ rfl ha hs

end interrupt

/-! ### The obligations on the handlers -/

/-- Settles O26: the slot completed is the one named, and the counter counts successes. -/
theorem evtxcCompletesSlot : Obligations.EvtxcCompletesSlot := by
  intro s idx i ok ha hs hi report
  refine ⟨if ok then countUp (Config.freeCount s.freeIdx) s.drv.txCnt else s.drv.txCnt, fun hok => ?_,
    fun hok hwrap => ?_, ?_⟩
  · exact if_neg (by simp [hok])
  · exact (if_pos hok).trans (countUp_of_ne hwrap)
  · rw [exec_evtxc_of_slot ha hs (slotIndex_of_toNat_eq hi), Driver.txComplete_eq]

/-- Settles O27: the head entry passes the length test, its frame is pushed, and the FIFO keeps the rest. -/
theorem evrxaReceivesFrame : Obligations.EvrxaReceivesFrame := by
  intro s idx k m rest ha hs hk he hdlc f
  refine ⟨countUp (Config.freeCount s.freeIdx) s.drv.rxCnt,
    if s.ctrl.status.fifo[k].overflow then satInc s.drv.rxq.ovf else s.drv.rxq.ovf, fun hwrap => countUp_of_ne hwrap,
    ?_, ?_⟩
  · split
    · exact satInc_toNat _
    · rfl
  · rw [exec_evrxa_of_cons ha hs (fifoIndex_of_toNat_eq hk) he, if_neg (Nat.not_lt.mpr hdlc), Driver.rxAvailable_eq,
      Ctrl.rxRelease_of_cons he]
    rfl

/-- Settles O28: the bus-off branch and the last-error branch, each field of Driver State written by one of them. -/
theorem evstsHandlesStatus : Obligations.EvstsHandlesStatus := by
  intro s ha hs off lec reports
  refine ⟨if lec = 0 then s.drv.errCnt else countUp (Config.freeCount s.freeIdx) s.drv.errCnt,
    s.drv.slots.map (Slot.afterStatus off), fun hlec => if_pos hlec, fun hlec hwrap => ?_, fun i => ?_, ?_⟩
  · exact (if_neg hlec).trans (countUp_of_ne hwrap)
  · exact Vector.getElem_map ..
  · rw [exec_evsts ha hs, statusChange_eq]

/-- Settles O8: each fault is the outcome of one test, made before any write. -/
theorem ownFaultsChangeNothingElse : Obligations.OwnFaultsChangeNothingElse := by
  refine ⟨fun s ok ha hs => exec_evtxc_of_no_slot ha hs rfl,
    fun s idx ha hs hidx => exec_evrxa_of_no_fifo ha hs (dif_neg (Nat.not_lt.mpr hidx)),
    fun s idx k ha hs hk he => exec_evrxa_of_nil ha hs (fifoIndex_of_toNat_eq hk) he,
    fun s idx k m rest ha hs hk he hdlc => ?_, fun s t ha hs hlen => ?_⟩
  · rw [exec_evrxa_of_cons ha hs (fifoIndex_of_toNat_eq hk) he, if_pos hdlc]
  · refine (guardOp_pass (i := .qpop) _ (by simp [opContext, ha]) fun _ => hs).trans ?_
    rw [if_pos hlen]
    rfl

/-! ### The waits -/

/-- The end of a wait with a code, for a thread. -/
theorem State.dropSeq_setStatus_eq {s : State} {t : Nat} (h : s.agent = .thread t) (c : Byte) :
    s.dropSeq.setStatus c = State.setStatus c { s with seqs := seqDrop t s.seqs } :=
  congrArg (State.setStatus c) (State.dropSeq_eq h)

/-- What a wait's end leaves: `cleared` is the state with the latch consumed (43_event_handlers R228, R229). -/
def WaitEnd.result (cleared s : State) : WaitEnd → State
  | .blocked => s
  | .signalled => cleared.dropSeq.setStatus 0x00
  | .expired => s.dropSeq.setStatus 0x13
  | .spurious => s.dropSeq.setStatus 0x00

theorem waitTxMove_eq (ti budget : Tick) (s : State) :
    waitTxMove ti budget s = (waitEnd s.drv.txEv s.now ti budget s.wake).result s.clearTxEv s := rfl

theorem waitRxMove_eq (ti budget : Tick) (s : State) :
    waitRxMove ti budget s = (waitEnd s.drv.rxEv s.now ti budget s.wake).result s.clearRxEv s := rfl

/-- What each completion a thread's move may try leaves, if R228 enables it. -/
theorem WaitEnd.result_waitEnd {s : State} {t : Nat} (ha : s.agent = .thread t) (latch : Bool) (d : Driver)
    (ti budget : Tick) (k : Wake) :
    (waitEnd latch s.now ti budget k).result { s with drv := d } s =
      match k with
      | .signalled => if latch then State.setStatus 0x00 { s with drv := d, seqs := seqDrop t s.seqs } else s
      | .expired =>
        if budget.toNat ≤ (s.now - ti).toNat then State.setStatus 0x13 { s with seqs := seqDrop t s.seqs } else s
      | .spurious => State.setStatus 0x00 { s with seqs := seqDrop t s.seqs } := by
  rw [waitEnd_eq]
  cases k with
  | signalled =>
    cases latch
    · rfl
    · exact State.dropSeq_setStatus_eq (s := { s with drv := d }) ha 0x00
  | expired =>
    by_cases h : budget.toNat ≤ (s.now - ti).toNat
    · simp only [if_pos h]
      exact State.dropSeq_setStatus_eq ha 0x13
    · simp only [if_neg h]
      rfl
  | spurious => exact State.dropSeq_setStatus_eq ha 0x00

/-- Settles O30: both waits end alike, each consuming its own latch. -/
theorem waitsComplete : Obligations.WaitsComplete := by
  intro s t ti budget ha ended
  have hcur := State.curSeq_thread ha
  refine ⟨fun hq => ?_, fun hq => ?_⟩
  · rw [execWaittx_of_curSeq (hcur.trans hq), waitTxMove_eq]
    exact congrArg _ (WaitEnd.result_waitEnd ha _ { s.drv with txEv := false } ti budget s.wake)
  · rw [execWaitrx_of_curSeq (hcur.trans hq), waitRxMove_eq]
    exact congrArg _ (WaitEnd.result_waitEnd ha _ { s.drv with rxEv := false } ti budget s.wake)

/-- Settles O29: the checks pass, and the thread has nothing in progress. -/
theorem waitsAreIssued : Obligations.WaitsAreIssued := by
  intro s t ha hs hq
  have hcur : s.curSeq = none := (State.curSeq_thread ha).trans hq
  have hadm : admits .thread s.agent = true := by simp [ha]
  simp only [exec, execWaittx, execWaitrx, hadm, hcur, ← State.putSeq_eq ha, Bool.true_eq_false, if_false]
  exact ⟨guardOp_pass _ hadm fun _ => hs, guardOp_pass _ hadm fun _ => hs⟩

/-! ### What no handler does -/

/-- A push never shortens the queue (42_receive_queue R196). -/
theorem RxQueue.len_le_push {q : RxQueue} (h : q.Inv) (e : ReceivedFrame) : q.len.toNat ≤ (q.push e).len.toNat := by
  have hlen := RxQueue.len_add_one_toNat h
  rcases Nat.lt_or_eq_of_le h.1 with hroom | hfull
  · rw [RxQueue.push_of_lt h hroom]
    exact hlen ▸ Nat.le_succ _
  · rw [RxQueue.push_of_full h hfull]
    exact hfull.le

namespace Driver.Handled
variable {d x : Driver}

theorem peakMb_eq (h : d.Handled x) : x.peakMb = d.peakMb := by
  induction h with
  | refl => rfl
  | push free e _ ih => exact (Driver.push_peakMb ..).trans ih
  | clearPending i _ ih => exact ih
  | countOverflow b _ ih => exact (Driver.countOverflow_peakMb ..).trans ih
  | note _ _ _ hp ih => exact hp.trans ih

/-- The queue's invariant is kept and its length does not fall. -/
theorem inv_and_len_le (h : d.Handled x) (hd : d.rxq.Inv) : x.rxq.Inv ∧ d.rxq.len.toNat ≤ x.rxq.len.toNat := by
  induction h with
  | refl => exact ⟨hd, Nat.le_refl _⟩
  | push free e _ ih =>
    obtain ⟨hinv, hlen⟩ := ih
    rw [Driver.push_rxq]
    exact ⟨RxQueue.push_inv hinv e, hlen.trans (RxQueue.len_le_push hinv e)⟩
  | clearPending i _ ih => exact ih
  | countOverflow b _ ih =>
    rw [Driver.countOverflow_eq]
    exact ih
  | note _ hq _ _ ih => rw [hq]; exact ih

end Driver.Handled

/-- From `s` to `t` the session, the loopback option, `hw_enabled`, what CANLL has commanded of CTRL's registers and the
free slots are as they were, and Driver State is what handlers make of it (43_event_handlers R224). -/
structure State.HandlersOnly (s t : State) : Prop where
  sess : t.sess = s.sess
  hwEnabled : t.hwEnabled = s.hwEnabled
  regs : t.ctrl.regs = s.ctrl.regs
  tme : t.ctrl.status.tme = s.ctrl.status.tme
  loopback : t.drv.loopback = s.drv.loopback
  handled : s.drv.Handled t.drv

namespace State.HandlersOnly
variable {s t : State}

theorem refl : s.HandlersOnly s := ⟨rfl, rfl, rfl, rfl, rfl, .refl⟩

theorem setRes (h : s.HandlersOnly t) (r : ResultRegs) : s.HandlersOnly (t.setRes r) :=
  ⟨h.sess, h.hwEnabled, h.regs, h.tme, h.loopback, h.handled⟩

theorem setStatus (h : s.HandlersOnly t) (c : Byte) : s.HandlersOnly (t.setStatus c) := h.setRes _

theorem drawn (h : s.HandlersOnly t) : s.HandlersOnly t.drawn :=
  ⟨h.sess, h.hwEnabled, h.regs, h.tme, h.loopback, h.handled⟩

end State.HandlersOnly

theorem statusChange_handlersOnly (s : State) : s.HandlersOnly (statusChange s) := by
  have hd : s.drv.Handled (statusChange s).drv := by
    unfold statusChange
    dsimp only
    split
    · exact (Driver.Handled.refl.busOff _ _).recordError _ _
    · exact Driver.Handled.refl.recordError _ _
  rw [statusChange_eq] at hd ⊢
  exact ⟨rfl, rfl, rfl, rfl, rfl, hd⟩

section handlersOnly
variable {i : Instr} {s t t' : State}

theorem raiseFault_handlersOnly {f : OpFault} (h : raiseFault f s = .next t) : s.HandlersOnly t := by
  cases h
  exact State.HandlersOnly.refl.setStatus _

theorem guardOp_handlersOnly {k : Outcome State Fault Refusal} (h : guardOp i s k = .next t)
    (hk : k = .next t → s.HandlersOnly t) : s.HandlersOnly t := by
  rcases guardOp_cases i s k with ⟨-, e⟩ | ⟨-, -, -, e⟩ | ⟨-, -, e⟩
  · exact raiseFault_handlersOnly (e.symm.trans h)
  · exact raiseFault_handlersOnly (e.symm.trans h)
  · exact hk (e.symm.trans h)

/-- An operation whose rule is one next state. -/
theorem guardOp_next_handlersOnly (h : guardOp i s (.next t') = .next t) (ht : s.HandlersOnly t') : s.HandlersOnly t :=
  guardOp_handlersOnly h fun e => by cases e; exact ht

/-- Whatever interrupt context issues does what handlers do and nothing more. -/
theorem exec_handlersOnly (ha : s.agent = .interrupt) (h : exec i s = .next t) : s.HandlersOnly t := by
  cases i with
  | tcalc => exact guardOp_next_handlersOnly (i := .tcalc) h (State.HandlersOnly.refl.setRes _).drawn
  | pricmp => exact guardOp_next_handlersOnly (i := .pricmp) h (State.HandlersOnly.refl.setRes _)
  | qpush =>
    exact guardOp_next_handlersOnly h
      ⟨rfl, rfl, rfl, rfl, Driver.push_loopback .., Driver.Handled.refl.push _ _⟩
  | evtxc idx ok =>
    refine guardOp_handlersOnly h fun e => ?_
    split at e
    · exact raiseFault_handlersOnly e
    · cases e
      exact ⟨rfl, rfl, rfl, rfl, Driver.txComplete_loopback .., Driver.Handled.refl.txComplete _ _ _ _⟩
  | evrxa idx =>
    refine guardOp_handlersOnly h fun e => ?_
    split at e
    · exact raiseFault_handlersOnly e
    split at e
    · exact raiseFault_handlersOnly e
    split at e
    · exact raiseFault_handlersOnly e
    · cases e
      exact ⟨rfl, rfl, rfl, rfl, Driver.rxAvailable_loopback .., Driver.Handled.refl.rxAvailable _ _ _ _⟩
  | evsts => exact guardOp_next_handlersOnly h ((statusChange_handlersOnly s).drawn.setStatus _)
  | _ =>
    cases (exec_context (by simp [opContext, ha, admits])).symm.trans h
    exact State.HandlersOnly.refl.setStatus _

end handlersOnly

/-- Settles O47: what handlers make of Driver State keeps `peak_mb` and does not shorten the queue. -/
theorem handlersLeaveSession : Obligations.HandlersLeaveSession := by
  intro i s t ha hq h
  have ho := exec_handlersOnly ha h
  obtain ⟨-, hlen⟩ := ho.handled.inv_and_len_le hq
  exact ⟨ho.sess, ho.loopback, ho.handled.peakMb_eq, ho.hwEnabled, ho.regs, ho.tme, hlen⟩

end Sys2Proof.Machine

/-! SUPPORT. The frames of START, STOP, SEND and RECEIVE, move by move, and the one-time enable (44_session_and_host_api
R241, R242, R250, R255, R262). -/

namespace Sys2Proof.Machine

open Host (Outcome)

/-! ### One move of a sequence -/

/-- What a thread's move makes of the state, by the sequence it has in progress. -/
def Seq.moved (s : State) : Seq → State
  | .start p clk rate opt => startMove clk rate opt p s
  | .stop p => stopMove p s
  | .send p f timeout => sendMove f timeout p s
  | .receive p timeout => receiveMove timeout p s
  | .waitTx ti budget => waitTxMove ti budget s
  | .waitRx ti budget => waitRxMove ti budget s

theorem exec_of_curSeq {s : State} {q : Seq} (h : s.curSeq = some q) : exec q.instr s = .next (q.moved s) := by
  cases q with
  | start => exact execStart_of_curSeq h
  | stop => exact execStop_of_curSeq h
  | send => exact execSend_of_curSeq h
  | receive => exact execReceive_of_curSeq h
  | waitTx => exact execWaittx_of_curSeq h
  | waitRx => exact execWaitrx_of_curSeq h

theorem exec_of_seqGet {s : State} {t : Nat} {q : Seq} (ha : s.agent = .thread t) (hq : seqGet t s.seqs = some q) :
    exec q.instr s = .next (q.moved s) :=
  exec_of_curSeq ((State.curSeq_thread ha).trans hq)

/-- The operations whose thread has a sequence or a wait in progress after they are issued (30_encoding R97). -/
def isSequence : Instr → Bool
  | .start | .stop | .send | .receive | .waittx | .waitrx => true
  | _ => false

section cases
variable {i : Instr} {s t : State}

/-- The checks before an operation raise a fault or run its rule. -/
theorem guardOp_eq_next {k : Outcome State Fault Refusal} (h : guardOp i s k = .next t) :
    (∃ c, t = s.setStatus c) ∨ k = .next t := by
  rcases guardOp_cases i s k with ⟨-, e⟩ | ⟨-, -, -, e⟩ | ⟨-, -, e⟩
  · cases e.symm.trans h
    exact .inl ⟨_, rfl⟩
  · cases e.symm.trans h
    exact .inl ⟨_, rfl⟩
  · exact .inr (e.symm.trans h)

/-- Everything such an operation can do: raise a fault, note its sequence at the write of CMD, make one move of it. -/
theorem exec_sequence_cases (hi : isSequence i = true) (h : exec i s = .next t) :
    (∃ c, t = s.setStatus c) ∨ (∃ q, t = s.putSeq q) ∨ ∃ q, s.curSeq = some q ∧ q.instr = i ∧ t = q.moved s := by
  cases i with
  | start | stop =>
    refine (guardOp_eq_next h).imp_right fun h => ?_
    split at h
    · cases h
      exact .inl ⟨_, rfl⟩
    · next hc =>
      cases h
      exact .inr ⟨_, hc, rfl, rfl⟩
    · cases h
  | send | receive =>
    simp only [exec, execSend, execReceive] at h
    split at h
    · refine (guardOp_eq_next h).imp_right fun h => .inl ?_
      cases h
      exact ⟨_, rfl⟩
    · next hc =>
      cases h
      exact .inr (.inr ⟨_, hc, rfl, rfl⟩)
    · cases h
  | waittx | waitrx =>
    simp only [exec, execWaittx, execWaitrx] at h
    split at h
    · cases h
      exact .inl ⟨_, rfl⟩
    split at h
    · next hc =>
      cases h
      exact .inr (.inr ⟨_, hc, rfl, rfl⟩)
    · cases h
    · refine (guardOp_eq_next h).imp_right fun h => .inl ?_
      cases h
      exact ⟨_, rfl⟩
  | _ => cases hi

/-- What faults, the note of a sequence and every move of it do, the operation does. -/
theorem exec_sequence_induct {F : State → Prop} (hi : isSequence i = true) (h : exec i s = .next t)
    (hfault : ∀ c, F (s.setStatus c)) (hnote : ∀ q, F (s.putSeq q))
    (hmove : ∀ q, s.curSeq = some q → q.instr = i → F (q.moved s)) : F t := by
  rcases exec_sequence_cases hi h with ⟨c, rfl⟩ | ⟨q, rfl⟩ | ⟨q, hc, hq, rfl⟩
  · exact hfault c
  · exact hnote q
  · exact hmove q hc hq

end cases

/-! ### The one-time enable -/

/-- From `s` to `t` the one-time enable is as it was, or commanded for the first time (44_session R242). -/
def State.EnableStep (s t : State) : Prop :=
  (t.hwEnabled = s.hwEnabled ∧ t.ctrl.regs.enables = s.ctrl.regs.enables) ∨
    (s.hwEnabled = false ∧ t.hwEnabled = true ∧ t.ctrl.regs.enables = s.ctrl.regs.enables + 1)

theorem State.EnableStep.of_regs {s t : State} (hw : t.hwEnabled = s.hwEnabled) (hr : t.ctrl.regs = s.ctrl.regs) :
    s.EnableStep t :=
  .inl ⟨hw, congrArg _ hr⟩

/-- Step 1 of START as one update (44_session R242). -/
theorem State.enableOnce_eq (s : State) :
    s.enableOnce = { s with
      hwEnabled := true
      ctrl := { s.ctrl with regs := { s.ctrl.regs with
        enables := s.ctrl.regs.enables + if s.hwEnabled then 0 else 1 } } } := by
  obtain ⟨sess, hw⟩ := s
  cases hw <;> rfl

theorem State.enableStep_enableOnce (s : State) : s.EnableStep s.enableOnce := by
  unfold State.enableOnce
  split
  · exact .inl ⟨rfl, rfl⟩
  · next h => exact .inr ⟨Bool.eq_false_iff.mpr h, rfl, rfl⟩

/-! ### The frame of START and STOP -/

/-- What a move of START leaves (44_session R241). -/
structure State.StartFrame (s t : State) : Prop where
  resT : t.resT = { s.resT with status := t.resT.status, tim := t.resT.tim }
  status : t.ctrl.status = s.ctrl.status
  mbox : t.ctrl.regs.mbox = s.ctrl.regs.mbox
  enable : s.EnableStep t

/-- What a move of STOP leaves (44_session R250). -/
structure State.StopFrame (s t : State) : Prop where
  resT : t.resT = { s.resT with status := t.resT.status }
  hwEnabled : t.hwEnabled = s.hwEnabled
  freeIdx : t.freeIdx = s.freeIdx
  status : t.ctrl.status = { s.ctrl.status with
    rqcp := t.ctrl.status.rqcp, errFlag := t.ctrl.status.errFlag, fifo := t.ctrl.status.fifo }
  overflow : ∀ k : Fin 2, t.ctrl.status.fifo[k].overflow = s.ctrl.status.fifo[k].overflow
  regs : t.ctrl.regs = { s.ctrl.regs with irqEn := t.ctrl.regs.irqEn, lowPower := t.ctrl.regs.lowPower }

section frames
variable {s : State} {u : Nat}

theorem State.StartFrame.putSeq {t : State} (h : s.StartFrame t) (q : Seq) : s.StartFrame (t.putSeq q) :=
  ⟨h.resT, h.status, h.mbox, h.enable⟩

theorem State.StartFrame.returnWith {t : State} (h : s.StartFrame t) (ha : t.agent = .thread u) (c : Byte) :
    s.StartFrame (t.returnWith c) := by
  obtain ⟨hres, hstatus, hmbox, henable⟩ := h
  rw [State.returnWith_eq ha]
  refine ⟨?_, hstatus, hmbox, henable⟩
  rw [hres]

theorem State.startFrame_constructDriver (loopback : Bool) (s : State) : s.StartFrame (s.constructDriver loopback) := by
  unfold State.constructDriver
  generalize Driver.fresh s.freeIdx loopback = d
  exact ⟨rfl, rfl, rfl, .of_regs rfl rfl⟩

/-- Step 4 of START, for a thread: `R_TIM` and the draw counter alone (44_session R245). -/
theorem State.storeTimings_eq (ha : s.agent = .thread u) (r : TimResult) :
    s.storeTimings r = { s with
      resT := { s.resT with tim := r.timings (Config.freeTimings s.freeIdx) }, freeIdx := s.freeIdx + 1 } := by
  unfold State.storeTimings
  rw [State.setRes_thread ha, State.res_thread ha]
  rfl

theorem startMove_frame {clk rate : Word} {opt : StartOpts} {p : StartPos} (ha : s.agent = .thread u) :
    s.StartFrame (startMove clk rate opt p s) := by
  have same : s.StartFrame s := ⟨rfl, rfl, rfl, .of_regs rfl rfl⟩
  have discarded : s.StartFrame s.discardDriver := ⟨rfl, rfl, rfl, .of_regs rfl rfl⟩
  cases p with
  | acquire =>
    unfold startMove
    dsimp only
    rw [State.acquire_eq ha]
    split <;> exact ⟨rfl, rfl, rfl, .of_regs rfl rfl⟩
  | hwEnable =>
    have henable : s.EnableStep s.enableOnce := s.enableStep_enableOnce
    have hframe : s.StartFrame s.enableOnce := by
      rw [State.enableOnce_eq] at henable ⊢
      exact ⟨rfl, rfl, rfl, henable⟩
    exact hframe.putSeq _
  | pollEnter n =>
    unfold startMove
    dsimp only
    split
    · exact same.putSeq _
    · exact same.putSeq _
    · exact same.returnWith ha _
  | construct => exact (s.startFrame_constructDriver opt.loopback).putSeq _
  | tcalc =>
    have hframe (r : TimResult) : s.StartFrame (s.storeTimings r) := by
      rw [State.storeTimings_eq ha]
      exact ⟨rfl, rfl, rfl, .of_regs rfl rfl⟩
    exact (hframe _).putSeq _
  | checkTim r =>
    cases r with
    | ok tim => exact same.putSeq _
    | invalidBitRate => exact discarded.returnWith ha _
    | logic => exact discarded.returnWith ha _
  | pollExit n =>
    unfold startMove
    dsimp only
    split
    · exact same.putSeq _
    · exact same.putSeq _
    · exact same.putSeq _
  | failReturn | finish => exact same.returnWith ha _
  | sessStop | failStop => exact discarded.putSeq _
  | irqOff | reqInit | setTiming | sessRun | irqOn | reqExit | failExit | filter =>
    exact ⟨rfl, rfl, rfl, .inl ⟨rfl, rfl⟩⟩

theorem stopMove_frame {p : StopPos} (ha : s.agent = .thread u) : s.StopFrame (stopMove p s) := by
  cases p with
  | acquire =>
    unfold stopMove State.acquire
    dsimp only
    split <;> exact ⟨rfl, rfl, rfl, rfl, fun _ => rfl, rfl⟩
  | irqOff | sessStop | lowPower => exact ⟨rfl, rfl, rfl, rfl, fun _ => rfl, rfl⟩
  | clearIrq =>
    exact ⟨rfl, rfl, rfl, rfl, fun k => (congrArg RxFifo.overflow (Ctrl.clearPendingIrq_fifo s.ctrl k) :), rfl⟩
  | finish =>
    unfold stopMove
    rw [State.returnWith_eq ha]
    exact ⟨rfl, rfl, rfl, rfl, fun _ => rfl, rfl⟩

end frames

/-- A write of the status, in either context, leaves every other result. -/
theorem State.setStatus_resT (c : Byte) (s : State) :
    (s.setStatus c).resT = { s.resT with status := (s.setStatus c).resT.status } := by
  cases ha : s.agent with
  | thread u => rw [State.setStatus_thread ha]
  | interrupt => rw [State.setStatus_interrupt ha]

theorem exec_start_frame {s t : State} (h : exec .start s = .next t) : s.StartFrame t := by
  refine exec_sequence_induct rfl h (fun c => ?_) (fun q => ⟨rfl, rfl, rfl, .inl ⟨rfl, rfl⟩⟩) fun q hc hq => ?_
  · refine ⟨?_, rfl, rfl, .inl ⟨rfl, rfl⟩⟩
    rw [State.setStatus_resT]
  · obtain ⟨u, ha⟩ := State.agent_of_curSeq hc
    cases q with
    | start p clk rate opt => exact startMove_frame ha
    | _ => cases hq

theorem exec_stop_frame {s t : State} (h : exec .stop s = .next t) : s.StopFrame t := by
  refine exec_sequence_induct rfl h (fun c => ⟨State.setStatus_resT c s, rfl, rfl, rfl, fun _ => rfl, rfl⟩)
    (fun q => ⟨rfl, rfl, rfl, rfl, fun _ => rfl, rfl⟩) fun q hc hq => ?_
  obtain ⟨u, ha⟩ := State.agent_of_curSeq hc
  cases q with
  | stop p => exact stopMove_frame ha
  | _ => cases hq

/-- Settles O50: each move of START and of STOP keeps its frame. -/
theorem startStopFrame : Obligations.StartStopFrame := by
  refine ⟨fun s t h => ?_, fun s t h => ?_⟩
  · obtain ⟨hres, hstatus, hmbox, -⟩ := exec_start_frame h
    exact ⟨hres, hstatus, hmbox⟩
  · obtain ⟨hres, hhw, hfree, hstatus, hovf, hregs⟩ := exec_stop_frame h
    exact ⟨hres, hhw, hfree, hstatus, hovf, hregs⟩

/-! ### The frame of SEND and RECEIVE -/

/-- What a move of SEND leaves (44_session R255, R259 d). -/
structure State.SendFrame (s t : State) : Prop where
  sess : t.sess = s.sess
  hwEnabled : t.hwEnabled = s.hwEnabled
  resT : t.resT = { s.resT with status := t.resT.status }
  drv : t.drv = { s.drv with slots := t.drv.slots, peakMb := t.drv.peakMb, txEv := t.drv.txEv }
  ctrl : t.ctrl = { status := { s.ctrl.status with tme := t.ctrl.status.tme },
                    regs := { s.ctrl.regs with mbox := t.ctrl.regs.mbox } }
  freeIdx : t.freeIdx = s.freeIdx

/-- What a move of RECEIVE leaves (44_session R262). -/
structure State.ReceiveFrame (s t : State) : Prop where
  sess : t.sess = s.sess
  hwEnabled : t.hwEnabled = s.hwEnabled
  resT : t.resT = { s.resT with status := t.resT.status, rxf := t.resT.rxf }
  drv : t.drv = { s.drv with
    rxq := { s.drv.rxq with tail := t.drv.rxq.tail, len := t.drv.rxq.len }, rxEv := t.drv.rxEv }
  ctrl : t.ctrl = s.ctrl

theorem loadMailbox_frame (f : Frame) (s : State) : s.SendFrame (loadMailbox f s).2 := by
  rcases loadMailbox_cases f s with ⟨-, h⟩ | ⟨-, -, h⟩ | ⟨-, k, -, h⟩ <;> rw [h]
  · exact ⟨rfl, rfl, rfl, rfl, rfl, rfl⟩
  · exact ⟨rfl, rfl, rfl, rfl, rfl, rfl⟩
  · exact ⟨rfl, rfl, rfl, rfl, rfl, rfl⟩

section frames
variable {s : State} {u : Nat}

theorem sendMove_frame {f : Frame} {timeout : Tick} {p : SendPos} (ha : s.agent = .thread u) :
    s.SendFrame (sendMove f timeout p s) := by
  have goes (q : Seq) : s.SendFrame (s.putSeq q) := ⟨rfl, rfl, rfl, rfl, rfl, rfl⟩
  have back (c : Byte) : s.SendFrame (s.returnWith c) := by
    rw [State.returnWith_eq ha]
    exact ⟨rfl, rfl, rfl, rfl, rfl, rfl⟩
  cases p with
  | acquire =>
    unfold sendMove State.acquire
    dsimp only
    split <;> exact ⟨rfl, rfl, rfl, rfl, rfl, rfl⟩
  | checkRunning =>
    unfold sendMove
    dsimp only
    split
    · exact goes _
    · exact back _
  | entry => exact goes _
  | canacc t0 =>
    unfold sendMove
    dsimp only
    split
    · exact goes _
    · exact goes _
  | mbload t0 =>
    obtain ⟨hsess, hhw, hres, hdrv, hctrl, hfree⟩ := loadMailbox_frame f s
    exact ⟨hsess, hhw, hres, hdrv, hctrl, hfree⟩
  | loaded t0 r =>
    unfold sendMove
    dsimp only
    split
    · exact back _
    · split
      · exact back _
      · exact goes _
  | tail t0 q =>
    unfold sendMove
    dsimp only
    split
    · exact ⟨rfl, rfl, rfl, rfl, rfl, rfl⟩
    · exact back _
    · exact goes _
    · exact ⟨rfl, rfl, rfl, rfl, rfl, rfl⟩
    · exact goes _

theorem State.receiveOldest_eq (ha : s.agent = .thread u) :
    s.receiveOldest = { s with
      resT := { s.resT with status := 0x00, rxf := s.drv.rxq.oldest }, drv := { s.drv with rxq := s.drv.rxq.popped }
      mtx := none, seqs := seqDrop u s.seqs } := by
  unfold State.receiveOldest
  rw [State.setRes_thread ha, State.res_thread ha]
  exact State.returnWith_eq (s := { s with
    resT := { s.resT with rxf := s.drv.rxq.oldest }, drv := { s.drv with rxq := s.drv.rxq.popped } }) ha _

theorem State.receiveNothing_eq (ha : s.agent = .thread u) :
    s.receiveNothing = { s with
      resT := { s.resT with status := 0x12, rxf := Config.freeReceived s.freeIdx }, mtx := none
      seqs := seqDrop u s.seqs, freeIdx := s.freeIdx + 1 } := by
  unfold State.receiveNothing
  rw [State.setRes_thread ha, State.res_thread ha]
  exact State.returnWith_eq (s := { s with
    resT := { s.resT with rxf := Config.freeReceived s.freeIdx }, freeIdx := s.freeIdx + 1 }) ha _

theorem receiveMove_frame {timeout : Tick} {p : RecvPos} (ha : s.agent = .thread u) :
    s.ReceiveFrame (receiveMove timeout p s) := by
  have goes (q : Seq) : s.ReceiveFrame (s.putSeq q) := ⟨rfl, rfl, rfl, rfl, rfl⟩
  cases p with
  | acquire =>
    unfold receiveMove State.acquire
    dsimp only
    split <;> exact ⟨rfl, rfl, rfl, rfl, rfl⟩
  | checkRunning =>
    unfold receiveMove
    dsimp only
    split
    · exact goes _
    · rw [State.returnWith_eq ha]
      exact ⟨rfl, rfl, rfl, rfl, rfl⟩
  | entry => exact goes _
  | tryPop t0 =>
    unfold receiveMove
    dsimp only
    split
    · exact goes _
    · rw [State.receiveOldest_eq ha]
      exact ⟨rfl, rfl, rfl, rfl, rfl⟩
  | tail t0 q =>
    unfold receiveMove
    dsimp only
    split
    · exact ⟨rfl, rfl, rfl, rfl, rfl⟩
    · rw [State.receiveNothing_eq ha]
      exact ⟨rfl, rfl, rfl, rfl, rfl⟩
    · exact goes _
    · exact ⟨rfl, rfl, rfl, rfl, rfl⟩
    · exact goes _

end frames

theorem exec_send_frame {s t : State} (h : exec .send s = .next t) : s.SendFrame t := by
  refine exec_sequence_induct rfl h (fun c => ⟨rfl, rfl, State.setStatus_resT c s, rfl, rfl, rfl⟩)
    (fun q => ⟨rfl, rfl, rfl, rfl, rfl, rfl⟩) fun q hc hq => ?_
  obtain ⟨u, ha⟩ := State.agent_of_curSeq hc
  cases q with
  | send p f timeout => exact sendMove_frame ha
  | _ => cases hq

theorem exec_receive_frame {s t : State} (h : exec .receive s = .next t) : s.ReceiveFrame t := by
  refine exec_sequence_induct rfl h (fun c => ?_) (fun q => ⟨rfl, rfl, rfl, rfl, rfl⟩)
    fun q hc hq => ?_
  · refine ⟨rfl, rfl, ?_, rfl, rfl⟩
    rw [State.setStatus_resT]
  · obtain ⟨u, ha⟩ := State.agent_of_curSeq hc
    cases q with
    | receive p timeout => exact receiveMove_frame ha
    | _ => cases hq

/-- Settles O49: each move of SEND and of RECEIVE keeps its frame. -/
theorem sendReceiveFrame : Obligations.SendReceiveFrame := by
  refine ⟨fun s t h => ?_, fun s t h => ?_⟩
  · obtain ⟨hsess, hhw, hres, hdrv, hctrl, hfree⟩ := exec_send_frame h
    exact ⟨hsess, hhw, hres, hdrv, hctrl, hfree⟩
  · obtain ⟨hsess, hhw, hres, hdrv, hctrl⟩ := exec_receive_frame h
    exact ⟨hsess, hhw, hres, hdrv, hctrl⟩

/-! ### What every operation and every step do to the one-time enable -/

namespace State.EnableStep
variable {s t : State}

theorem of_sendFrame (h : s.SendFrame t) : s.EnableStep t := .inl ⟨h.hwEnabled, by rw [h.ctrl]⟩

theorem of_receiveFrame (h : s.ReceiveFrame t) : s.EnableStep t := .of_regs h.hwEnabled (congrArg _ h.ctrl)

theorem of_stopFrame (h : s.StopFrame t) : s.EnableStep t := .inl ⟨h.hwEnabled, by rw [h.regs]⟩

theorem of_handlersOnly (h : s.HandlersOnly t) : s.EnableStep t := .of_regs h.hwEnabled h.regs

theorem keeps_enableInv (h : s.EnableStep t) (hs : s.EnableInv) : t.EnableInv := by
  unfold State.EnableInv at hs ⊢
  rcases h with ⟨hw, hn⟩ | ⟨hoff, hon, hn⟩
  · rw [hw, hn]
    exact hs
  · rw [hon, hn, hs, hoff]
    rfl

theorem keeps_hwEnabled (h : s.EnableStep t) (hs : s.hwEnabled = true) : t.hwEnabled = true := by
  rcases h with ⟨hw, -⟩ | ⟨-, hon, -⟩
  · exact hw.trans hs
  · exact hon

end State.EnableStep

section enable
variable {i : Instr} {s t t' : State}

theorem guardOp_enableStep {k : Outcome State Fault Refusal} (h : guardOp i s k = .next t)
    (hk : k = .next t → s.EnableStep t) : s.EnableStep t := by
  rcases guardOp_eq_next h with ⟨c, rfl⟩ | h
  · exact .of_regs rfl rfl
  · exact hk h

/-- An operation whose rule is one next state. -/
theorem guardOp_next_enableStep (h : guardOp i s (.next t') = .next t) (ht : s.EnableStep t') : s.EnableStep t :=
  guardOp_enableStep h fun e => by cases e; exact ht

theorem WaitEnd.result_enableStep (r : WaitEnd) (d : Driver) (s : State) :
    s.EnableStep (r.result { s with drv := d } s) := by
  cases r <;> exact .of_regs rfl rfl

/-- A wait consumes a latch at most (43_event_handlers R228). -/
theorem exec_wait_enableStep (hi : i = .waittx ∨ i = .waitrx) (h : exec i s = .next t) : s.EnableStep t := by
  have hseq : isSequence i = true := by rcases hi with rfl | rfl <;> rfl
  refine exec_sequence_induct hseq h (fun c => .of_regs rfl rfl) (fun q => .of_regs rfl rfl) fun q hc hq => ?_
  cases q with
  | waitTx ti budget => exact WaitEnd.result_enableStep _ _ s
  | waitRx ti budget => exact WaitEnd.result_enableStep _ _ s
  | start | stop | send | receive => subst hq; rcases hi with hi | hi <;> cases hi

/-- Only START commands the one-time enable, and only for the first time (44_session R242). -/
theorem exec_enableStep (h : exec i s = .next t) : s.EnableStep t := by
  cases i with
  | start => exact (exec_start_frame h).enable
  | stop => exact .of_stopFrame (exec_stop_frame h)
  | send => exact .of_sendFrame (exec_send_frame h)
  | receive => exact .of_receiveFrame (exec_receive_frame h)
  | waittx => exact exec_wait_enableStep (.inl rfl) h
  | waitrx => exact exec_wait_enableStep (.inr rfl) h
  | qpush | evtxc | evrxa | evsts =>
    cases ha : s.agent with
    | interrupt => exact .of_handlersOnly (exec_handlersOnly ha h)
    | thread u =>
      cases (exec_context (by simp [opContext, ha, admits])).symm.trans h
      exact .of_regs rfl rfl
  | mbload =>
    have hload := State.EnableStep.of_sendFrame (loadMailbox_frame s.ops.frm s)
    exact guardOp_next_enableStep h hload
  | qpop =>
    refine guardOp_enableStep h fun e => ?_
    split at e <;> cases e <;> exact .of_regs rfl rfl
  | tcalc => exact guardOp_next_enableStep (i := .tcalc) h (.of_regs rfl rfl)
  | pricmp => exact guardOp_next_enableStep (i := .pricmp) h (.of_regs rfl rfl)
  | _ => exact guardOp_next_enableStep h (.of_regs rfl rfl)

theorem issue_enableStep {a : Agent} {w : Word} (h : issue a w s = .next t) : s.EnableStep t := by
  unfold issue at h
  split at h
  · cases h
    exact .of_regs rfl rfl
  · exact (exec_enableStep h :)

theorem carryOn_enableStep {u : Nat} {k : Wake} (h : carryOn u k s = .next t) : s.EnableStep t := by
  unfold carryOn at h
  split at h
  · split at h
    · cases h
      exact .of_regs rfl rfl
    · exact (exec_enableStep h :)
  · cases h
    exact .of_regs rfl rfl

theorem serve_enableStep {c : Cause} (h : serve c s = .next t) : s.EnableStep t := by
  unfold serve at h
  split at h
  · cases h
    exact .of_regs rfl rfl
  split at h
  · cases c with
    | txc k => exact (exec_enableStep h :)
    | rx k => exact (exec_enableStep h :)
    | status => exact (exec_enableStep h :)
  · cases h
    exact .of_regs rfl rfl

/-- CTRL writes of what CANLL commanded only the transmit-request bits (log 15). -/
theorem ctrlMove_enableStep (m : CtrlMove) (s : State) : s.EnableStep (ctrlMove m s) := by
  cases m with
  | txDone i ok => unfold ctrlMove; dsimp only; split <;> exact .inl ⟨rfl, rfl⟩
  | abortDone i flagged => unfold ctrlMove; dsimp only; split <;> exact .inl ⟨rfl, rfl⟩
  | redraw st => unfold ctrlMove; dsimp only; split <;> exact .inl ⟨rfl, rfl⟩
  | _ => exact .inl ⟨rfl, rfl⟩

theorem perform_enableStep {m : Move} (h : perform m s = .next t) : s.EnableStep t := by
  cases m with
  | load a w =>
    unfold perform at h
    dsimp only at h
    split at h <;> cases h <;> exact .of_regs rfl rfl
  | cmd a w =>
    unfold perform at h
    dsimp only at h
    split at h
    · exact issue_enableStep h
    · cases h
      exact .of_regs rfl rfl
  | run u k => exact carryOn_enableStep h
  | ctrl m =>
    cases h
    exact ctrlMove_enableStep m s
  | tick d =>
    cases h
    exact .of_regs rfl rfl
  | irqEnter =>
    cases h
    unfold State.irqEnter
    split <;> exact .of_regs rfl rfl
  | dispatch c => exact serve_enableStep h
  | irqLeave =>
    cases h
    unfold State.irqLeave
    split <;> exact .of_regs rfl rfl

/-- Everything a step can do to the one-time enable. -/
theorem step_enableStep (h : step s = .next t) : s.EnableStep t := by
  unfold step at h
  split at h
  · cases h
    exact .of_regs rfl rfl
  · exact (perform_enableStep h :)

end enable

/-- Settles O59: a step leaves the enable as it was, or commands it for the first time. -/
theorem stepKeepsEnableOnce : Obligations.StepKeepsEnableOnce := by
  intro s t hs h
  have henable := step_enableStep h
  exact ⟨henable.keeps_enableInv hs, henable.keeps_hwEnabled⟩

end Sys2Proof.Machine

/-! SUPPORT. The diagnostic reads (44_session_and_host_api R270 to R276), and START, STOP, SEND and RECEIVE line by line
(R241, R250, R255, R262). -/

namespace Sys2Proof.Machine

open Host (Outcome)

/-! ### The diagnostic reads -/

section reads
variable {s : State} {t : Nat}

/-- In a session a thread's operation comes to its rule. -/
theorem guardOp_pass_of_running {i : Instr} (hi : opContext i = .thread) (ha : s.agent = .thread t)
    (hs : s.sess = .running) (k : Outcome State Fault Refusal) : guardOp i s k = k :=
  guardOp_pass k (by simp [hi, ha]) fun _ => hs

theorem exec_rdact (ha : s.agent = .thread t) (hs : s.sess = .running) :
    exec .rdact s = .next (State.setRes { s.res with status := 0x00, flag := s.drv.activity }
      { s with drv := { s.drv with activity := false } }) :=
  guardOp_pass_of_running (i := .rdact) rfl ha hs _

end reads

/-- Settles O23: the words are evaluated, and the checks pass. -/
theorem counterReads : Obligations.CounterReads := by
  refine ⟨by decide, fun s t ha hs => ⟨?_, ?_, ?_⟩⟩
  · exact guardOp_pass_of_running (i := .rderr) rfl ha hs _
  · exact guardOp_pass_of_running (i := .rdtxc) rfl ha hs _
  · exact guardOp_pass_of_running (i := .rdrxc) rfl ha hs _

/-- Settles O24: the checks pass, and widening keeps the number. -/
theorem valueReads : Obligations.ValueReads := by
  intro s t ha hs
  refine ⟨s.drv.lastErr.setWidth 32, s.drv.peakMb.setWidth 32, s.drv.rxq.len.setWidth 32,
    BitVec.toNat_setWidth_of_le (by decide), BitVec.toNat_setWidth_of_le (by decide),
    BitVec.toNat_setWidth_of_le (by decide), ?_, ?_, ?_, ?_⟩
  · exact guardOp_pass_of_running (i := .rdovf) rfl ha hs _
  · exact guardOp_pass_of_running (i := .rdlec) rfl ha hs _
  · exact guardOp_pass_of_running (i := .rdpeak) rfl ha hs _
  · exact guardOp_pass_of_running (i := .qlen) rfl ha hs _

/-- Settles O25: the second read finds the flag that the first has cleared. -/
theorem rdactReadsAndClears : Obligations.RdactReadsAndClears :=
  fun _ _ ha hs => ⟨_, _, rfl, exec_rdact ha hs, exec_rdact ha hs, by rw [State.res_setRes]; rfl⟩

/-! ### START line by line -/

section next
variable {u : State} {t : Nat} {l : List (Nat × Seq)}

/-- A thread goes on to a place of its sequence. -/
theorem State.next_putSeq (ha : u.agent = .thread t) (hl : u.seqs = l) (q : Seq) :
    (Outcome.next (u.putSeq q) : Outcome State Fault Refusal) = .next { u with seqs := seqPut t q l } := by
  rw [State.putSeq_eq ha, hl]

/-- A thread returns from its sequence with a code. -/
theorem State.next_returnWith (ha : u.agent = .thread t) (hl : u.seqs = l) (c : Byte) :
    (Outcome.next (u.returnWith c) : Outcome State Fault Refusal) =
      .next (State.setStatus c { u with mtx := none, seqs := seqDrop t l }) := by
  rw [State.returnWith_eq_setStatus ha, hl]

end next

theorem pollStep_of_eq {want ack : Bool} (h : ack = want) (n : Nat) : pollStep want ack n = some true := if_pos h

theorem pollStep_of_ne {want ack : Bool} (h : ack ≠ want) (n : Nat) :
    pollStep want ack n = if n + 1 < Config.initRetryBound then none else some false := if_neg h

section polls
variable {clk rate : Word} {opt : StartOpts} {s : State}

theorem startMove_pollEnter_of_ack (h : s.ctrl.status.initAck = true) (n : Nat) :
    startMove clk rate opt (.pollEnter n) s = s.putSeq (.start .construct clk rate opt) := by
  simp only [startMove, pollStep_of_eq h]

/-- A read that finds no acknowledge: again, or the poll has failed (44_session R243). -/
theorem startMove_pollEnter_of_no_ack (h : s.ctrl.status.initAck = false) (n : Nat) :
    startMove clk rate opt (.pollEnter n) s =
      if n + 1 < Config.initRetryBound then s.putSeq (.start (.pollEnter (n + 1)) clk rate opt)
      else s.returnWith 0x02 := by
  have hne : s.ctrl.status.initAck ≠ true := Bool.eq_false_iff.mp h
  by_cases hn : n + 1 < Config.initRetryBound
  · simp only [startMove, pollStep_of_ne hne, if_pos hn]
  · simp only [startMove, pollStep_of_ne hne, if_neg hn]
    rfl

theorem startMove_pollExit_of_no_ack (h : s.ctrl.status.initAck = false) (n : Nat) :
    startMove clk rate opt (.pollExit n) s = s.putSeq (.start .filter clk rate opt) := by
  simp only [startMove, pollStep_of_eq h]

/-- A read that finds the acknowledge still there: again, or the poll has failed (44_session R248). -/
theorem startMove_pollExit_of_ack (h : s.ctrl.status.initAck = true) (n : Nat) :
    startMove clk rate opt (.pollExit n) s =
      if n + 1 < Config.initRetryBound then s.putSeq (.start (.pollExit (n + 1)) clk rate opt)
      else s.putSeq (.start .failExit clk rate opt) := by
  have hne : s.ctrl.status.initAck ≠ false := Bool.ne_false_iff.mpr h
  by_cases hn : n + 1 < Config.initRetryBound
  · simp only [startMove, pollStep_of_ne hne, if_pos hn]
  · simp only [startMove, pollStep_of_ne hne, if_neg hn]

end polls

theorem TimResult.timings_of_ok {r : TimResult} {tim : Timings} (h : r = .ok tim) (free : Timings) :
    r.timings free = tim := by
  rw [h]
  rfl

theorem State.enableOnce_of_not {s : State} (h : s.hwEnabled = false) :
    s.enableOnce = { s with
      hwEnabled := true
      ctrl := { s.ctrl with regs := { s.ctrl.regs with enables := s.ctrl.regs.enables + 1 } } } :=
  if_neg (by simp [h])

theorem State.enableOnce_of_enabled {s : State} (h : s.hwEnabled = true) : s.enableOnce = s := if_pos h

/-- Settles O33: each place of START up to the constructed Driver State makes its move and goes to the next. -/
theorem startEntersInitialization : Obligations.StartEntersInitialization := by
  intro s t p clk rate opt ha hq on
  have goes {u : State} (hu : u.agent = .thread t) (hl : u.seqs = s.seqs) (q : StartPos) :
      Outcome.next (u.putSeq (.start q clk rate opt)) = on q u :=
    State.next_putSeq hu hl _
  rw [show exec .start s = .next (startMove clk rate opt p s) from exec_of_seqGet ha hq]
  refine ⟨?_, ?_, ?_, ?_, ?_, ?_, ?_, ?_⟩
  · rintro rfl hw
    rw [← State.enableOnce_of_not hw]
    exact goes (by rw [State.enableOnce_of_not hw]; exact ha) (by rw [State.enableOnce_of_not hw]) _
  · rintro rfl hw
    rw [show startMove clk rate opt .hwEnable s = State.putSeq (.start .irqOff clk rate opt) s.enableOnce from rfl,
      State.enableOnce_of_enabled hw]
    exact goes ha rfl _
  · rintro rfl
    exact goes (u := s.command (Ctrl.irqEnable .none)) ha rfl _
  · rintro rfl
    exact goes (u := s.discardDriver) ha rfl _
  · rintro rfl
    exact goes (u := s.command (Ctrl.requestInit true)) ha rfl _
  · rintro n rfl hack
    rw [startMove_pollEnter_of_ack hack]
    exact goes ha rfl _
  · rintro n rfl hack
    rw [startMove_pollEnter_of_no_ack hack, apply_ite Outcome.next, goes ha rfl, State.returnWith_eq_setStatus ha]
  · rintro rfl
    refine ⟨Driver.fresh s.freeIdx opt.loopback, rfl, rfl, rfl, rfl,
      fun i => congrArg Slot.pending (Driver.fresh_slot s.freeIdx opt.loopback i), rfl, rfl, rfl, rfl, rfl, rfl, rfl,
      rfl, rfl, ?_⟩
    exact goes (u := s.constructDriver opt.loopback) ha rfl _

/-- Settles O34: each place of START from the calculation on makes its move, and goes to the next or returns. -/
theorem startLeavesInitialization : Obligations.StartLeavesInitialization := by
  intro s t p clk rate opt ha hq on back
  have goes {u : State} (hu : u.agent = .thread t) (hl : u.seqs = s.seqs) (q : StartPos) :
      Outcome.next (u.putSeq (.start q clk rate opt)) = on q u :=
    State.next_putSeq hu hl _
  have returns {u : State} (hu : u.agent = .thread t) (hl : u.seqs = s.seqs) (c : Byte) :
      Outcome.next (u.returnWith c) = back c u :=
    State.next_returnWith hu hl c
  rw [show exec .start s = .next (startMove clk rate opt p s) from exec_of_seqGet ha hq]
  refine ⟨?_, ?_, ?_, ?_, ?_, ?_, ?_, ?_, ?_, ?_, ?_, ?_, ?_, ?_, ?_⟩
  · rintro rfl
    refine ⟨_, fun x hx => TimResult.timings_of_ok hx (Config.freeTimings s.freeIdx), ?_⟩
    rw [← State.storeTimings_eq ha]
    exact goes (by rw [State.storeTimings_eq ha]; exact ha) (by rw [State.storeTimings_eq ha]) _
  · rintro tim rfl
    exact goes ha rfl _
  · rintro rfl
    exact returns (u := s.discardDriver) ha rfl _
  · rintro rfl
    exact returns (u := s.discardDriver) ha rfl _
  · rintro tim rfl
    exact goes (u := s.command (Ctrl.setTiming tim opt.silent)) ha rfl _
  · rintro rfl
    exact goes (u := { s with sess := .running }) ha rfl _
  · rintro rfl
    exact goes (u := s.command (Ctrl.irqEnable .allSix)) ha rfl _
  · rintro rfl
    exact goes (u := s.command (Ctrl.requestInit false)) ha rfl _
  · rintro n rfl hack
    rw [startMove_pollExit_of_no_ack hack]
    exact goes ha rfl _
  · rintro n rfl hack
    rw [startMove_pollExit_of_ack hack, apply_ite Outcome.next, goes ha rfl, goes ha rfl]
  · rintro rfl
    exact goes (u := s.command (Ctrl.irqEnable .none)) ha rfl _
  · rintro rfl
    exact goes (u := s.discardDriver) ha rfl _
  · rintro rfl
    exact returns ha rfl _
  · rintro rfl
    exact goes (u := s.command Ctrl.filterAcceptAll) ha rfl _
  · rintro rfl
    exact returns ha rfl _

/-! ### STOP line by line -/

/-- Settles O37: each place of STOP makes its move, and goes to the next or returns. -/
theorem stopFollowsText : Obligations.StopFollowsText := by
  intro s t p ha hq on
  have goes {u : State} (hu : u.agent = .thread t) (hl : u.seqs = s.seqs) (q : StopPos) :
      Outcome.next (u.putSeq (.stop q)) = on q u :=
    State.next_putSeq hu hl _
  rw [show exec .stop s = .next (stopMove p s) from exec_of_seqGet ha hq]
  refine ⟨?_, ?_, ?_, ?_, ?_⟩
  · rintro rfl
    exact goes (u := s.command (Ctrl.irqEnable .none)) ha rfl _
  · rintro rfl
    exact goes (u := s.discardDriver) ha rfl _
  · rintro rfl
    exact goes (u := s.command Ctrl.lowPowerReset) ha rfl _
  · rintro rfl
    exact goes (u := s.command Ctrl.clearPendingIrq) ha rfl _
  · rintro rfl
    exact State.next_returnWith ha rfl _

/-! ### The part SEND and RECEIVE share -/

section tail
variable {timeout t0 now ti budget e : Tick} {latch : Bool} {k : Wake}

theorem tailStep_check_of_le (h : timeout.toNat ≤ e.toNat) : tailStep timeout t0 now latch k (.check e) = .giveUp :=
  if_pos h

theorem tailStep_check_of_lt (h : e.toNat < timeout.toNat) :
    tailStep timeout t0 now latch k (.check e) = .goto (.issueWait e) :=
  if_neg (Nat.not_le.mpr h)

theorem tailStep_wait_signalled (hk : k = .signalled) (hl : latch = true) :
    tailStep timeout t0 now latch k (.wait ti budget) = .again true := by
  subst hk hl
  rfl

theorem tailStep_wait_ended (h : k = .spurious ∨ (k = .expired ∧ budget.toNat ≤ (now - ti).toNat)) :
    tailStep timeout t0 now latch k (.wait ti budget) = .again false := by
  rcases h with rfl | ⟨rfl, hb⟩
  · rfl
  · simp only [tailStep, waitEnd_eq, if_pos hb]

theorem tailStep_wait_blocked
    (h : (k = .signalled ∧ latch = false) ∨ (k = .expired ∧ (now - ti).toNat < budget.toNat)) :
    tailStep timeout t0 now latch k (.wait ti budget) = .stay := by
  rcases h with ⟨rfl, rfl⟩ | ⟨rfl, hb⟩
  · rfl
  · simp only [tailStep, waitEnd_eq, if_neg (Nat.not_le.mpr hb)]

/-- Only the timeout test gives up, on an elapsed time that has reached the timeout (44_session R258). -/
theorem tailStep_eq_giveUp {q : TailPos} (h : tailStep timeout t0 now latch k q = .giveUp) :
    ∃ e, q = .check e ∧ timeout.toNat ≤ e.toNat := by
  cases q with
  | elapsed => cases h
  | check e =>
    rcases Nat.lt_or_ge e.toNat timeout.toNat with hlt | hle
    · cases (tailStep_check_of_lt hlt).symm.trans h
    · exact ⟨e, rfl, hle⟩
  | issueWait e => cases h
  | wait ti budget =>
    unfold tailStep at h
    dsimp only at h
    split at h <;> cases h

end tail

/-- What the shared part leaves: `lost` where it gives up, `place` for its own places, `top` for the place of the next
try, `cleared` the state with the latch consumed (44_session R255, R262). -/
def TailStep.result (lost cleared s : State) (place : TailPos → Seq) (top : Seq) : TailStep → State
  | .stay => s
  | .giveUp => lost
  | .goto q => s.putSeq (place q)
  | .again true => cleared.putSeq top
  | .again false => s.putSeq top

theorem sendMove_tail (f : Frame) (timeout t0 : Tick) (q : TailPos) (s : State) :
    sendMove f timeout (.tail t0 q) s =
      (tailStep timeout t0 s.now s.drv.txEv s.wake q).result (s.returnWith 0x11) s.clearTxEv s
        (fun q => .send (.tail t0 q) f timeout) (.send (.canacc t0) f timeout) := by
  unfold sendMove
  dsimp only
  split <;> next h => rw [h]; rfl

theorem receiveMove_tail (timeout t0 : Tick) (q : TailPos) (s : State) :
    receiveMove timeout (.tail t0 q) s =
      (tailStep timeout t0 s.now s.drv.rxEv s.wake q).result s.receiveNothing s.clearRxEv s
        (fun q => .receive (.tail t0 q) timeout) (.receive (.tryPop t0) timeout) := by
  unfold receiveMove
  dsimp only
  split <;> next h => rw [h]; rfl

/-! ### SEND line by line -/

/-- Settles O39: each place of SEND makes its move, and goes to the next, stays or returns. -/
theorem sendFollowsText : Obligations.SendFollowsText := by
  intro s t p f timeout ha hq on back
  have goes {u : State} (hu : u.agent = .thread t) (hl : u.seqs = s.seqs) (q : SendPos) :
      Outcome.next (u.putSeq (.send q f timeout)) = on q u :=
    State.next_putSeq hu hl _
  have returns (c : Byte) : Outcome.next (s.returnWith c) = back c := State.next_returnWith ha rfl c
  rw [show exec .send s = .next (sendMove f timeout p s) from exec_of_seqGet ha hq]
  refine ⟨?_, ?_, ?_, ?_, ?_, ?_, ?_, ?_, ?_, ?_, ?_, ?_, ?_, ?_, ?_⟩
  · rintro rfl hs
    exact (congrArg _ (if_pos hs)).trans (goes ha rfl _)
  · rintro rfl
    exact goes ha rfl _
  · rintro t0 rfl hacc
    exact (congrArg _ (if_pos hacc)).trans (goes ha rfl _)
  · rintro t0 rfl hacc
    exact (congrArg _ (if_neg (Bool.eq_false_iff.mp hacc))).trans (goes ha rfl _)
  · rintro t0 rfl
    have b : OpBody .send s (loadMailbox f s).2 := loadMailbox_body f s
    exact goes (b.agent.trans ha) b.seqs _
  · rintro t0 rfl
    exact returns _
  · rintro t0 rfl
    exact returns _
  · rintro t0 rfl
    exact goes ha rfl _
  · rintro t0 rfl
    exact goes ha rfl _
  · rintro t0 e rfl hle
    rw [sendMove_tail, tailStep_check_of_le hle]
    exact returns _
  · rintro t0 e rfl hlt
    rw [sendMove_tail, tailStep_check_of_lt hlt]
    exact goes ha rfl _
  · rintro t0 e rfl
    exact goes ha rfl _
  · rintro t0 ti b rfl hk hev
    rw [sendMove_tail, tailStep_wait_signalled hk hev]
    exact goes (u := s.clearTxEv) ha rfl _
  · rintro t0 ti b rfl hend
    rw [sendMove_tail, tailStep_wait_ended hend]
    exact goes ha rfl _
  · rintro t0 ti b rfl hblocked
    rw [sendMove_tail, tailStep_wait_blocked hblocked]
    rfl

/-! ### RECEIVE line by line -/

/-- Settles O41: each place of RECEIVE makes its move, and goes to the next, stays or returns. -/
theorem receiveFollowsText : Obligations.ReceiveFollowsText := by
  intro s t p timeout ha hq on
  have goes {u : State} (hu : u.agent = .thread t) (hl : u.seqs = s.seqs) (q : RecvPos) :
      Outcome.next (u.putSeq (.receive q timeout)) = on q u :=
    State.next_putSeq hu hl _
  rw [show exec .receive s = .next (receiveMove timeout p s) from exec_of_seqGet ha hq]
  refine ⟨?_, ?_, ?_, ?_, ?_, ?_, ?_, ?_, ?_, ?_, ?_⟩
  · rintro rfl hs
    exact (congrArg _ (if_pos hs)).trans (goes ha rfl _)
  · rintro rfl
    exact goes ha rfl _
  · rintro t0 rfl hlen
    exact (congrArg _ (if_pos hlen)).trans (goes ha rfl _)
  · rintro t0 rfl hlen
    exact ⟨s.drv.rxq.oldest, s.drv.rxq.popped, RxQueue.contents_eq_oldest_cons hlen, rfl, rfl,
      congrArg _ ((if_neg hlen).trans (State.receiveOldest_eq ha))⟩
  · rintro t0 rfl
    exact goes ha rfl _
  · rintro t0 e rfl hle
    rw [receiveMove_tail, tailStep_check_of_le hle]
    exact ⟨_, congrArg _ (State.receiveNothing_eq ha)⟩
  · rintro t0 e rfl hlt
    rw [receiveMove_tail, tailStep_check_of_lt hlt]
    exact goes ha rfl _
  · rintro t0 e rfl
    exact goes ha rfl _
  · rintro t0 ti b rfl hk hev
    rw [receiveMove_tail, tailStep_wait_signalled hk hev]
    exact goes (u := s.clearRxEv) ha rfl _
  · rintro t0 ti b rfl hend
    rw [receiveMove_tail, tailStep_wait_ended hend]
    exact goes ha rfl _
  · rintro t0 ti b rfl hblocked
    rw [receiveMove_tail, tailStep_wait_blocked hblocked]
    rfl

end Sys2Proof.Machine

/-! SUPPORT. Where START, SEND and RECEIVE return, and with which code (44_session_and_host_api R240,
R258, R259, R263). -/

namespace Sys2Proof.Machine

/-! ### A thread that goes on has not returned -/

section returns
variable {s u : State} {t : Nat}

theorem State.not_returned_putSeq (ha : u.agent = .thread t) (q : Seq) : ¬seqGet t (u.putSeq q).seqs = none := by
  rw [State.putSeq_eq ha]
  simp

theorem State.not_returned_acquire {q₀ : Seq} (ha : s.agent = .thread t) (hq : seqGet t s.seqs = some q₀) (q : Seq) :
    ¬seqGet t (s.acquire q).seqs = none := by
  rw [State.acquire_eq ha]
  split
  · simp
  · simp [hq]

theorem State.returnWith_status (ha : u.agent = .thread t) (c : Byte) : (u.returnWith c).resT.status = c := by
  rw [State.returnWith_eq ha]

/-! ### START -/

/-- Everything a move of START that returns can be: its end, one of the two polls that fail, TCALC's failure. -/
theorem startMove_returned {clk rate : Word} {opt : StartOpts} {p : StartPos} (ha : s.agent = .thread t)
    (hq : seqGet t s.seqs = some (.start p clk rate opt)) (h : seqGet t (startMove clk rate opt p s).seqs = none) :
    startMove clk rate opt p s = s.returnWith 0x00 ∨
    ((p = .failReturn ∨ ∃ n, p = .pollEnter n) ∧ ∃ c, startMove clk rate opt p s = s.returnWith c) ∨
    ∃ c, startMove clk rate opt p s = s.discardDriver.returnWith c := by
  cases p with
  | acquire => exact absurd h (State.not_returned_acquire ha hq _)
  | hwEnable =>
    refine absurd h (State.not_returned_putSeq (u := s.enableOnce) ?_ _)
    rw [State.enableOnce_eq]
    exact ha
  | pollEnter n =>
    unfold startMove at h ⊢
    dsimp only at h ⊢
    split at h
    · exact absurd h (State.not_returned_putSeq ha _)
    · exact absurd h (State.not_returned_putSeq ha _)
    · exact .inr (.inl ⟨.inr ⟨n, rfl⟩, _, rfl⟩)
  | checkTim r =>
    cases r with
    | ok tim => exact absurd h (State.not_returned_putSeq ha _)
    | invalidBitRate => exact .inr (.inr ⟨_, rfl⟩)
    | logic => exact .inr (.inr ⟨_, rfl⟩)
  | pollExit n =>
    unfold startMove at h
    dsimp only at h
    split at h <;> exact absurd h (State.not_returned_putSeq ha _)
  | failReturn => exact .inr (.inl ⟨.inl rfl, _, rfl⟩)
  | finish => exact .inl rfl
  | construct => exact absurd h (State.not_returned_putSeq (u := s.constructDriver opt.loopback) ha _)
  | tcalc => exact absurd h (State.not_returned_putSeq (u := s.storeTimings _) ha _)
  | irqOff | sessStop | reqInit | setTiming | sessRun | irqOn | reqExit | failExit | failStop | filter =>
    exact absurd h (State.not_returned_putSeq ha _)

/-- Where the owner's place says Stopped and nothing is under construction, there is no Driver State (10_state R26). -/
theorem SessionFits.absent {x : Session} {d : Driver} {q : Seq} (h : SessionFits x d (some q))
    (hs : q.sessAt = some .stopped) (hc : q.constructing = false) : x = .stopped ∧ d = Driver.absent := by
  have hx : x = .stopped := h.1 q rfl .stopped hs
  refine ⟨hx, (h.2 hx).resolve_right ?_⟩
  rintro ⟨_, ⟨⟩, hq⟩
  rw [hc] at hq
  cases hq

/-- Settles O36: TCALC's failure discards the session, and the polls that fail stand where it is gone already. -/
theorem failedStartLeavesStopped : Obligations.FailedStartLeavesStopped := by
  intro s u t p clk rate opt hl hs ha hq h hret hfail
  have hc : s.curSeq = some (.start p clk rate opt) := (State.curSeq_thread ha).trans hq
  cases (execStart_of_curSeq hc).symm.trans h
  rcases startMove_returned ha hq hret with e | ⟨hp, c, e⟩ | ⟨c, e⟩
  · rw [e] at hfail
    exact absurd (State.returnWith_status ha _) hfail
  · obtain ⟨hfits, -⟩ := (State.sessionInv_iff hl).mp hs
    have hstopped : s.sess = .stopped ∧ s.drv = Driver.absent := by
      rcases hp with rfl | ⟨n, rfl⟩
      · obtain ⟨-, -, -, hf⟩ := hfits.at_owner hl hc rfl
        exact hf.absent rfl rfl
      · obtain ⟨-, -, -, hf⟩ := hfits.at_owner hl hc rfl
        exact hf.absent rfl rfl
    obtain ⟨hsess, hdrv⟩ := hstopped
    rw [e]
    exact ⟨hsess, hdrv, rfl⟩
  · rw [e]
    exact ⟨rfl, rfl, rfl⟩

/-! ### SEND and RECEIVE -/

/-- The shared part returns only where it gives up. -/
theorem TailStep.eq_giveUp_of_returned {lost cleared : State} {place : TailPos → Seq} {top q : Seq} {r : TailStep}
    (ha : s.agent = .thread t) (hc : cleared.agent = .thread t) (hq : seqGet t s.seqs = some q)
    (h : seqGet t (r.result lost cleared s place top).seqs = none) : r = .giveUp := by
  cases r with
  | giveUp => rfl
  | stay => cases hq.symm.trans h
  | goto p => exact absurd h (State.not_returned_putSeq ha _)
  | again b =>
    cases b
    · exact absurd h (State.not_returned_putSeq ha _)
    · exact absurd h (State.not_returned_putSeq hc _)

/-- A move of SEND that returns has another code than `NOT_SENT`, or stands at the timeout test (44_session R258). -/
theorem sendMove_returned_notSent {f : Frame} {timeout : Tick} {p : SendPos} (ha : s.agent = .thread t)
    (hq : seqGet t s.seqs = some (.send p f timeout)) (h : seqGet t (sendMove f timeout p s).seqs = none) :
    (sendMove f timeout p s).resT.status ≠ 0x11 ∨ ∃ t0 e, p = .tail t0 (.check e) ∧ timeout.toNat ≤ e.toNat := by
  cases p with
  | acquire => exact absurd h (State.not_returned_acquire ha hq _)
  | checkRunning =>
    unfold sendMove at h ⊢
    dsimp only at h ⊢
    split at h
    · exact absurd h (State.not_returned_putSeq ha _)
    · next hs =>
      rw [if_neg hs, State.returnWith_status ha]
      exact .inl (by decide)
  | entry => exact absurd h (State.not_returned_putSeq ha _)
  | canacc t0 =>
    unfold sendMove at h
    dsimp only at h
    split at h <;> exact absurd h (State.not_returned_putSeq ha _)
  | mbload t0 =>
    have b : OpBody .send s (loadMailbox f s).2 := loadMailbox_body f s
    exact absurd h (State.not_returned_putSeq (b.agent.trans ha) _)
  | loaded t0 r =>
    unfold sendMove at h ⊢
    dsimp only at h ⊢
    split at h
    · next hr =>
      rw [if_pos hr, State.returnWith_status ha]
      exact .inl (by decide)
    · next hr =>
      rw [if_neg hr]
      split at h
      · next hr' =>
        rw [if_pos hr', State.returnWith_status ha]
        exact .inl (by decide)
      · exact absurd h (State.not_returned_putSeq ha _)
  | tail t0 q =>
    rw [sendMove_tail] at h
    obtain ⟨e, rfl, hle⟩ := tailStep_eq_giveUp (TailStep.eq_giveUp_of_returned (cleared := s.clearTxEv) ha ha hq h)
    exact .inr ⟨t0, e, rfl, hle⟩

/-- A move of RECEIVE that returns has another code than `NO_DATA`, or stands at the timeout test (44_session R263). -/
theorem receiveMove_returned_noData {timeout : Tick} {p : RecvPos} (ha : s.agent = .thread t)
    (hq : seqGet t s.seqs = some (.receive p timeout)) (h : seqGet t (receiveMove timeout p s).seqs = none) :
    (receiveMove timeout p s).resT.status ≠ 0x12 ∨ ∃ t0 e, p = .tail t0 (.check e) ∧ timeout.toNat ≤ e.toNat := by
  cases p with
  | acquire => exact absurd h (State.not_returned_acquire ha hq _)
  | checkRunning =>
    unfold receiveMove at h ⊢
    dsimp only at h ⊢
    split at h
    · exact absurd h (State.not_returned_putSeq ha _)
    · next hs =>
      rw [if_neg hs, State.returnWith_status ha]
      exact .inl (by decide)
  | entry => exact absurd h (State.not_returned_putSeq ha _)
  | tryPop t0 =>
    unfold receiveMove at h ⊢
    dsimp only at h ⊢
    split at h
    · exact absurd h (State.not_returned_putSeq ha _)
    · next hlen =>
      rw [if_neg hlen, State.receiveOldest_eq ha]
      exact .inl (show (0x00#8) ≠ 0x12#8 by decide)
  | tail t0 q =>
    rw [receiveMove_tail] at h
    obtain ⟨e, rfl, hle⟩ := tailStep_eq_giveUp (TailStep.eq_giveUp_of_returned (cleared := s.clearRxEv) ha ha hq h)
    exact .inr ⟨t0, e, rfl, hle⟩

/-- Settles O43: every other return of SEND and RECEIVE has another code. -/
theorem timeoutsNeverEarly : Obligations.TimeoutsNeverEarly := by
  refine ⟨fun s u t p f timeout ha hq h hret hcode => ?_, fun s u t p timeout ha hq h hret hcode => ?_⟩
  · cases (exec_of_seqGet ha hq).symm.trans h
    exact (sendMove_returned_notSent ha hq hret).resolve_left (not_not_intro hcode)
  · cases (exec_of_seqGet ha hq).symm.trans h
    exact (receiveMove_returned_noData ha hq hret).resolve_left (not_not_intro hcode)

end returns

end Sys2Proof.Machine

/-! SUPPORT. START, STOP, SEND and RECEIVE as a whole: the machine runs from the write of CMD through the moves of the
thread to the return (44_session_and_host_api R240 to R263). -/

namespace Sys2Proof.Machine

open Host (Outcome Core)

/-! ### A run move by move -/

theorem seqPut_seqPut (t : Nat) (q q' : Seq) (l : List (Nat × Seq)) : seqPut t q' (seqPut t q l) = seqPut t q' l := by
  induction l with
  | nil => simp [seqPut]
  | cons e l ih =>
    obtain ⟨u, r⟩ := e
    rcases Nat.lt_trichotomy t u with hlt | rfl | hgt
    · simp [seqPut, hlt]
    · simp [seqPut]
    · simp [seqPut, Nat.not_lt.mpr hgt.le, hgt.ne, ih]

theorem run_succ_of_step {M : Core} {s u : M.State} (h : M.step s = .next u) (n : Nat) :
    M.run (n + 1) s = M.run n u := by
  rw [Core.run, h]

/-- The machine makes `n` steps. -/
def State.run (n : Nat) (s : State) : Outcome State Fault Refusal := Core.run core n s

theorem State.run_succ {s u : State} (h : step s = .next u) (n : Nat) : s.run (n + 1) = u.run n :=
  run_succ_of_step (M := core) h n

/-- Thread `t` carries on at the place it has come to. -/
theorem step_carryOn {s : State} {t : Nat} {k : Wake} {l : List Move} {q : Seq} (hi : s.irq = none)
    (hs : s.sched = .run t k :: l) (hq : seqGet t s.seqs = some q) :
    step s = .next (q.moved { s with sched := l, agent := .thread t, wake := k }) :=
  (step_run hs hi hq).trans (exec_of_seqGet (s := { s with sched := l, agent := .thread t, wake := k }) rfl hq)

/-- Outside an interrupt entry thread `t` stands at the place `q` of its sequence, with `l` the moves to come. -/
def State.standing (t : Nat) (k : Wake) (q : Seq) (l : List Move) (u : State) : State :=
  { u with irq := none, agent := .thread t, wake := k, seqs := seqPut t q u.seqs, sched := l }

section standing
variable {n t : Nat} {k : Wake} {q q' : Seq} {l : List Move} {s u : State}

theorem State.putSeq_standing : (u.standing t k q l).putSeq q' = u.standing t k q' l := by
  rw [State.putSeq_eq (s := u.standing t k q l) rfl]
  exact congrArg (fun l' => { u.standing t k q l with seqs := l' }) (seqPut_seqPut t q q' u.seqs)

theorem step_standing : step (u.standing t k q (.run t k :: l)) = .next (q.moved (u.standing t k q l)) :=
  step_carryOn (s := u.standing t k q (.run t k :: l)) rfl rfl (seqGet_seqPut_self t q u.seqs)

/-- The thread's next move makes `f` of the state and takes it to the place `q'`. -/
theorem run_carryOn {f : State → State}
    (h : q.moved (u.standing t k q l) = ((f u).standing t k q l).putSeq q') :
    (u.standing t k q (.run t k :: l)).run (n + 1) = ((f u).standing t k q' l).run n := by
  rw [State.run_succ step_standing, h, State.putSeq_standing]

/-- The thread's next move is its return. -/
theorem run_return {c : Byte} (h : q.moved (u.standing t k q l) = (u.standing t k q l).returnWith c) :
    (u.standing t k q (.run t k :: l)).run 1 = .next ((u.standing t k q l).returnWith c) := by
  rw [← h]
  exact State.run_succ step_standing 0

/-- CTRL acknowledges, or not, between two moves of the thread. -/
theorem run_initAck {b : Bool} :
    (u.standing t k q (.ctrl (.initAck b) :: l)).run (n + 1) =
      ((ctrlMove (.initAck b) u).standing t k q l).run n :=
  State.run_succ rfl n

/-- The write of CMD and the thread's first move: it stands past `acquire(mtx)` and owns the lock. -/
theorem run_issue {w : Word} {i : Instr} (hi : s.irq = none) (hm : s.mtx = none) (hq : seqGet t s.seqs = none)
    (hs : s.sched = .cmd (.thread t) w :: .run t k :: l) (hd : decode w = .instr i)
    (hbegin : exec i { s with sched := .run t k :: l, agent := .thread t } =
      .next { s with sched := .run t k :: l, agent := .thread t, seqs := seqPut t q s.seqs })
    (hacq : ∀ s, q.moved s = s.acquire q') :
    s.run (n + 2) = ({ s with mtx := some t }.standing t k q' l).run n := by
  have hissue : mayIssue (.thread t) s = true := by simp [mayIssue, hi, hq]
  have hstep := (step_cmd hs hissue hd).trans hbegin
  have hstep' := step_carryOn (t := t) (k := k) (l := l) (q := q)
    (s := { s with sched := .run t k :: l, agent := .thread t, seqs := seqPut t q s.seqs }) hi rfl
    (seqGet_seqPut_self t q s.seqs)
  refine (State.run_succ hstep (n + 1)).trans ((State.run_succ hstep' n).trans ?_)
  rw [hacq, State.acquire_eq (t := t) rfl, if_pos hm, seqPut_seqPut]
  simp only [State.standing, hi]

end standing

/-! ### STOP -/

/-- Settles O38: the run passes every place of STOP. -/
theorem stopCompletes : Obligations.StopCompletes := by
  intro s t k rest hi hm hq hs
  obtain ⟨-, hbegin, -, -⟩ :=
    sequencesBegin { s with sched := carryOns t k 6 ++ rest, agent := .thread t } t rfl hq
  refine ⟨_, Eq.trans (run_issue (q' := .stop .irqOff) hi hm hq hs (by decide) hbegin fun _ => rfl) <|
    Eq.trans (run_carryOn (q' := .stop .sessStop) (f := State.command (Ctrl.irqEnable .none)) rfl) <|
    Eq.trans (run_carryOn (q' := .stop .lowPower) (f := State.discardDriver) rfl) <|
    Eq.trans (run_carryOn (q' := .stop .clearIrq) (f := State.command Ctrl.lowPowerReset) rfl) <|
    Eq.trans (run_carryOn (q' := .stop .finish) (f := State.command Ctrl.clearPendingIrq) rfl) <| run_return rfl, ?_⟩
  exact ⟨rfl, rfl, rfl, rfl, seqGet_seqDrop_self t _, rfl, rfl, rfl, rfl, rfl, rfl,
    fun j => (congrArg RxFifo.entries (Ctrl.clearPendingIrq_fifo s.ctrl j) :), rfl, rfl, rfl⟩

/-! ### SEND -/

theorem sendMove_mbload_of_free {f : Frame} {timeout t0 : Tick} {i : Fin 3} {s : State} (hf : f.unsupported = false)
    (hi : firstFree s.ctrl.status.tme = some i) :
    sendMove f timeout (.mbload t0) s = (loadSlot i f s).putSeq (.send (.loaded t0 .ok) f timeout) := by
  simp only [sendMove, loadMailbox_of_free hf hi]

/-- Loading slot 0 never raises the statistic (41_priority R173). -/
theorem loadSlot_zero_drv (f : Frame) (s : State) :
    (loadSlot 0 f s).drv = { s.drv with slots := s.drv.slots.set 0 ⟨true, f⟩ } := by
  simp [loadSlot]

/-- Settles O40: CANACC accepts, MBLOAD loads slot 0, and SEND returns without a wait. -/
theorem sendLoadsAtOnce : Obligations.SendLoadsAtOnce := by
  intro s t k rest hi hm hq hrun htme hf hs
  obtain ⟨-, -, hbegin, -⟩ :=
    sequencesBegin { s with sched := carryOns t k 6 ++ rest, agent := .thread t } t rfl hq
  have hfree : firstFree s.ctrl.status.tme = some 0 := by rw [htme]; decide
  have hbusy : setPortBit s.ctrl.status.tme 0 false = 0b110#3 := by rw [htme]; decide
  let place (p : SendPos) : Seq := .send p s.ops.frm s.ops.tmo
  refine ⟨_, Eq.trans (run_issue (q' := place .checkRunning) hi hm hq hs (by decide) hbegin fun _ => rfl) <|
    Eq.trans (run_carryOn (q' := place .entry) (f := id) (if_pos hrun)) <|
    Eq.trans (run_carryOn (q' := place (.canacc s.now)) (f := id) rfl) <|
    Eq.trans (run_carryOn (q' := place (.mbload s.now)) (f := id) (if_pos (if_pos htme))) <|
    Eq.trans (run_carryOn (q' := place (.loaded s.now .ok)) (f := loadSlot 0 s.ops.frm)
      (sendMove_mbload_of_free hf hfree)) <| run_return rfl, ?_⟩
  exact ⟨rfl, rfl, rfl, seqGet_seqDrop_self t _, loadSlot_zero_drv s.ops.frm s,
    congrArg (fun v => { s.ctrl.status with tme := v }) hbusy, Vector.getElem_set_self .., hrun, rfl, rfl, rfl, rfl⟩

/-! ### RECEIVE -/

/-- Settles O42: the first try finds the entry, and RECEIVE returns without a wait. -/
theorem receiveReturnsOldest : Obligations.ReceiveReturnsOldest := by
  intro s t k rest e l hi hm hq hrun hcont hs
  obtain ⟨-, -, -, hbegin⟩ :=
    sequencesBegin { s with sched := carryOns t k 4 ++ rest, agent := .thread t } t rfl hq
  have hlen : s.drv.rxq.len ≠ 0 := by
    intro h0
    have hl := s.drv.rxq.length_contents
    rw [hcont, h0] at hl
    cases hl
  obtain ⟨rfl, rfl⟩ := List.cons.inj ((RxQueue.contents_eq_oldest_cons hlen).symm.trans hcont)
  let place (p : RecvPos) : Seq := .receive p s.ops.tmo
  refine ⟨_, Eq.trans (run_issue (q' := place .checkRunning) hi hm hq hs (by decide) hbegin fun _ => rfl) <|
    Eq.trans (run_carryOn (q' := place .entry) (f := id) (if_pos hrun)) <|
    Eq.trans (run_carryOn (q' := place (.tryPop s.now)) (f := id) rfl) <|
    Eq.trans (State.run_succ step_standing 0) <|
    congrArg Outcome.next ((if_neg hlen).trans (State.receiveOldest_eq rfl)), ?_⟩
  exact ⟨rfl, rfl, rfl, rfl, rfl, rfl, seqGet_seqDrop_self t _, rfl, hrun, rfl, rfl, rfl, rfl⟩

/-! ### START -/

theorem State.enableOnce_standing (t : Nat) (k : Wake) (q : Seq) (l : List Move) (u : State) :
    (u.standing t k q l).enableOnce = u.enableOnce.standing t k q l := by
  rw [State.enableOnce_eq, State.enableOnce_eq]
  rfl

/-- The state once START has requested initialization mode (44_session R241 to R243). -/
def State.requested (u : State) : State :=
  ((u.enableOnce.command (Ctrl.irqEnable .none)).discardDriver).command (Ctrl.requestInit true)

/-- The state once START has stored the timings it calculated (44_session R245). -/
def State.timed (tim : Timings) (u : State) : State :=
  { u with resT := { u.resT with tim := tim }, freeIdx := u.freeIdx + 1 }

/-- The state once START has made a session and requested the exit from initialization mode (44_session R244 to
R248). -/
def State.programmed (opt : StartOpts) (tim : Timings) (u : State) : State :=
  (({ ((u.constructDriver opt.loopback).timed tim).command (Ctrl.setTiming tim opt.silent) with
    sess := .running }.command (Ctrl.irqEnable .allSix)).command (Ctrl.requestInit false))

theorem startMove_tcalc_of_ok {s : State} {t : Nat} {clk rate : Word} {opt : StartOpts} {tim : Timings}
    (ha : s.agent = .thread t) (h : timingCalc clk.toNat rate.toNat = .ok tim) :
    startMove clk rate opt .tcalc s = (s.timed tim).putSeq (.start (.checkTim (.ok tim)) clk rate opt) := by
  simp only [startMove, h, State.storeTimings_eq ha]
  rfl

section start
variable {n t : Nat} {k : Wake} {l : List Move} {u : State} {clk rate : Word} {opt : StartOpts} {tim : Timings}

theorem run_start_to_request :
    (u.standing t k (.start .hwEnable clk rate opt) (carryOns t k 4 ++ l)).run (n + 4) =
      (u.requested.standing t k (.start (.pollEnter 0) clk rate opt) l).run n :=
  Eq.trans (run_carryOn (q' := .start .irqOff clk rate opt) (f := State.enableOnce)
    (congrArg (State.putSeq _) (State.enableOnce_standing ..))) <|
  Eq.trans (run_carryOn (q' := .start .sessStop clk rate opt) (f := State.command (Ctrl.irqEnable .none)) rfl) <|
  Eq.trans (run_carryOn (q' := .start .reqInit clk rate opt) (f := State.discardDriver) rfl) <|
  run_carryOn (q' := .start (.pollEnter 0) clk rate opt) (f := State.command (Ctrl.requestInit true)) rfl

theorem run_start_to_exit (hack : u.ctrl.status.initAck = true) (htim : timingCalc clk.toNat rate.toNat = .ok tim) :
    (u.standing t k (.start (.pollEnter 0) clk rate opt) (carryOns t k 8 ++ l)).run (n + 8) =
      ((u.programmed opt tim).standing t k (.start (.pollExit 0) clk rate opt) l).run n :=
  Eq.trans (run_carryOn (q' := .start .construct clk rate opt) (f := id)
    (startMove_pollEnter_of_ack (by exact hack) 0)) <|
  Eq.trans (run_carryOn (q' := .start .tcalc clk rate opt) (f := State.constructDriver opt.loopback) rfl) <|
  Eq.trans (run_carryOn (q' := .start (.checkTim (.ok tim)) clk rate opt) (f := State.timed tim)
    (startMove_tcalc_of_ok (t := t) rfl htim)) <|
  Eq.trans (run_carryOn (q' := .start (.setTiming tim) clk rate opt) (f := id) rfl) <|
  Eq.trans (run_carryOn (q' := .start .sessRun clk rate opt) (f := State.command (Ctrl.setTiming tim opt.silent))
    rfl) <|
  Eq.trans (run_carryOn (q' := .start .irqOn clk rate opt) (f := fun u => { u with sess := .running }) rfl) <|
  Eq.trans (run_carryOn (q' := .start .reqExit clk rate opt) (f := State.command (Ctrl.irqEnable .allSix)) rfl) <|
  run_carryOn (q' := .start (.pollExit 0) clk rate opt) (f := State.command (Ctrl.requestInit false)) rfl

theorem run_start_to_return (hack : u.ctrl.status.initAck = false) :
    (u.standing t k (.start (.pollExit 0) clk rate opt) (carryOns t k 3 ++ l)).run 3 =
      .next (((u.command Ctrl.filterAcceptAll).standing t k (.start .finish clk rate opt) l).returnWith 0x00) :=
  Eq.trans (run_carryOn (q' := .start .filter clk rate opt) (f := id)
    (startMove_pollExit_of_no_ack (by exact hack) 0)) <|
  Eq.trans (run_carryOn (q' := .start .finish clk rate opt) (f := State.command Ctrl.filterAcceptAll) rfl) <|
  run_return rfl

end start

/-- Settles O35: the run passes every place of START that a successful one has. -/
theorem startCompletes : Obligations.StartCompletes := by
  intro s t k tim rest hi hm hq htim hs
  obtain ⟨hbegin, -, -, -⟩ := sequencesBegin { s with
    sched := (startMoves t k ++ rest).tail
    agent := .thread t } t rfl hq
  refine ⟨_, Eq.trans (run_issue hi hm hq hs (by decide) hbegin fun _ => rfl) <|
    Eq.trans run_start_to_request <| Eq.trans run_initAck <|
    Eq.trans (run_start_to_exit rfl htim) <| Eq.trans run_initAck <| run_start_to_return rfl, ?_⟩
  unfold State.requested
  rw [State.enableOnce_eq]
  exact ⟨rfl, rfl, rfl, rfl, seqGet_seqDrop_self t _, rfl, rfl, rfl, rfl, rfl, rfl, rfl, rfl, rfl, rfl,
    fun i => congrArg Slot.pending (Driver.fresh_slot s.freeIdx s.ops.opt.loopback i), rfl, rfl, rfl, rfl, rfl, rfl,
    rfl, rfl, rfl, rfl, rfl, rfl, rfl, rfl⟩

end Sys2Proof.Machine

/-! SUPPORT. The interrupt (60_exceptions R290 to R309): when a cause is raised, who may issue, what the step of each
move of the interrupt is; and that every step answers a next state (R284). -/

namespace Sys2Proof.Machine

open Host (Outcome)

/-! ### The causes and the line -/

/-- The flag of a cause is set at CTRL's ports, whether or not its source is enabled (60_exceptions R292). -/
def Cause.stands (c : Ctrl) : Cause → Prop
  | .txc i => c.status.rqcp.getLsbD i.val = true
  | .rx k => c.status.fifo[k].entries ≠ []
  | .status => c.status.errFlag = true

theorem Ctrl.raised_iff {c : Ctrl} {x : Cause} :
    c.raised x = true ↔ c.regs.irqEn = .allSix ∧ c.status.initAck = false ∧ x.stands c := by
  cases x <;> simp [Ctrl.raised, Cause.stands, portBit, and_assoc]

theorem Ctrl.line_iff_raised {c : Ctrl} : c.line = true ↔ ∃ x, c.raised x = true := by
  simp only [Ctrl.line, Bool.or_eq_true]
  constructor
  · rintro (((((h | h) | h) | h) | h) | h) <;> exact ⟨_, h⟩
  · rintro ⟨x, h⟩
    match x, h with
    | .txc 0, h | .txc 1, h | .txc 2, h | .rx 0, h | .rx 1, h | .status, h => simp [h]

theorem Ctrl.line_iff {c : Ctrl} : c.line = true ↔ c.regs.irqEn = .allSix ∧ c.status.initAck = false ∧
    ((∃ i : Fin 3, c.status.rqcp.getLsbD i.val = true) ∨ (∃ k : Fin 2, c.status.fifo[k].entries ≠ []) ∨
      c.status.errFlag = true) := by
  rw [Ctrl.line_iff_raised]
  constructor
  · rintro ⟨x, h⟩
    obtain ⟨hen, hack, hx⟩ := Ctrl.raised_iff.mp h
    refine ⟨hen, hack, ?_⟩
    cases x with
    | txc i => exact .inl ⟨i, hx⟩
    | rx k => exact .inr (.inl ⟨k, hx⟩)
    | status => exact .inr (.inr hx)
  · rintro ⟨hen, hack, ⟨i, hx⟩ | ⟨k, hx⟩ | hx⟩
    · exact ⟨.txc i, Ctrl.raised_iff.mpr ⟨hen, hack, hx⟩⟩
    · exact ⟨.rx k, Ctrl.raised_iff.mpr ⟨hen, hack, hx⟩⟩
    · exact ⟨.status, Ctrl.raised_iff.mpr ⟨hen, hack, hx⟩⟩

theorem State.irqEnter_eq (s : State) :
    s.irqEnter = { s with
      irq := if s.irq = none ∧ s.sess = .running ∧ s.ctrl.line = true then some s.now else s.irq } := by
  unfold State.irqEnter
  split <;> rfl

theorem State.irqLeave_eq (s : State) :
    s.irqLeave = { s with irq := if s.ctrl.line = true then s.irq else none } := by
  unfold State.irqLeave
  cases s.ctrl.line <;> rfl

/-! ### Who may issue -/

theorem mayIssue_thread_of_entry {s : State} (h : s.irq ≠ none) (t : Nat) : mayIssue (.thread t) s = false := by
  simp [mayIssue, h]

theorem mayIssue_interrupt_of_silenced {s : State} (h : s.silenced = true) : mayIssue .interrupt s = false :=
  congrArg not h

theorem curSeq_of_mayIssue {a : Agent} {s : State} (h : mayIssue a s = true) :
    State.curSeq { s with agent := a } = none := by
  cases a with
  | thread t =>
    obtain ⟨-, hq⟩ := Bool.and_eq_true_iff.mp h
    exact Option.isNone_iff_eq_none.mp hq
  | interrupt => rfl

/-! ### The steps -/

section steps
variable {s : State} {a : Agent} {rest : List Move}

theorem step_of_sched {m : Move} (hs : s.sched = m :: rest) : step s = perform m { s with sched := rest } := by
  unfold step
  rw [hs]

/-- A command word or a load by an agent that may not issue does nothing (log 2). -/
theorem step_of_not_mayIssue {w : Word} {o : OperandWrite} (ha : mayIssue a s = false)
    (hs : s.sched = .cmd a w :: rest ∨ s.sched = .load a o :: rest) : step s = .next { s with sched := rest } := by
  have ha' : ¬ mayIssue a { s with sched := rest } = true := Bool.eq_false_iff.mp ha
  rcases hs with hs | hs
  · exact (step_of_sched hs).trans (if_neg ha')
  · exact (step_of_sched hs).trans (if_neg ha')

/-- Inside an interrupt entry no thread carries on (20_memory R72 b). -/
theorem step_run_of_entry {t : Nat} {k : Wake} (hi : s.irq ≠ none) (hs : s.sched = .run t k :: rest) :
    step s = .next { s with sched := rest } :=
  (step_of_sched hs).trans (if_neg hi)

/-- The handler operation a raised cause leads to, in an entry taken at `ts` (60_exceptions R292 DP2, DP3). -/
def Cause.handled (ts : Tick) (s : State) : Cause → Outcome State Fault Refusal
  | .txc i =>
    exec (.evtxc (BitVec.ofNat 2 i.val) (s.ctrl.status.txok.getLsbD i.val))
      { s with agent := .interrupt, ops := { s.ops with ts := ts }, ctrl := s.ctrl.ackRqcp i }
  | .rx k => exec (.evrxa (BitVec.ofNat 2 k.val)) { s with agent := .interrupt }
  | .status => exec .evsts { s with agent := .interrupt, ops := { s.ops with ts := ts } }

theorem serve_of_raised {c : Cause} {ts : Tick} (hi : s.irq = some ts) (hr : s.ctrl.raised c = true) :
    serve c s = c.handled ts s := by
  unfold serve
  split
  · next hn => cases hn.symm.trans hi
  · next ts' hts =>
    obtain rfl : ts' = ts := Option.some.inj (hts.symm.trans hi)
    exact if_pos hr

theorem step_dispatch {c : Cause} {ts : Tick} (hs : s.sched = .dispatch c :: rest) (hi : s.irq = some ts)
    (hr : s.ctrl.raised c = true) : step s = c.handled ts { s with sched := rest } :=
  (step_of_sched hs).trans (serve_of_raised (s := { s with sched := rest }) hi hr)

end steps

/-- Settles O52: the entry and the return are one update each, and a held agent's move does nothing. -/
theorem interruptEntryAndReturn : Obligations.InterruptEntryAndReturn := by
  refine ⟨fun c => Ctrl.line_iff, fun s rest hs => ?_, fun s rest hs => ?_, fun s t w k o rest hi hs => ?_,
    fun s t w o rest hoff hseq hs => ?_⟩
  · exact (step_of_sched hs).trans (congrArg Outcome.next (State.irqEnter_eq _))
  · exact (step_of_sched hs).trans (congrArg Outcome.next (State.irqLeave_eq _))
  · have ha : mayIssue (.thread t) s = false := mayIssue_thread_of_entry hi t
    rcases hs with hs | hs | hs
    · exact step_of_not_mayIssue (o := o) ha (.inl hs)
    · exact step_run_of_entry hi hs
    · exact step_of_not_mayIssue (w := w) ha (.inr hs)
  · have hsil : s.silenced = true := by
      rcases hseq with ⟨p, clk, rate, opt, hp, hq⟩ | ⟨p, hp, hq⟩
      · exact State.silenced_of_seqGet hoff hq (decide_eq_true hp)
      · exact State.silenced_of_seqGet hoff hq (decide_eq_true hp)
    exact step_of_not_mayIssue (mayIssue_interrupt_of_silenced hsil) hs

/-- Settles O53: the index of the cause fits the two bits of the operation's index field. -/
theorem dispatcherServesCauses : Obligations.DispatcherServesCauses := by
  refine ⟨fun c x => Ctrl.raised_iff, fun s c rest ts hs hi hr => ⟨?_, ?_, ?_⟩⟩
  · rintro i rfl
    have hidx : (BitVec.ofNat 2 i.val).toNat = i.val := Nat.mod_eq_of_lt (by omega)
    exact ⟨_, _, hidx, fun j => getLsbD_setPortBit_false _ i j, step_dispatch hs hi hr⟩
  · rintro k rfl
    have hidx : (BitVec.ofNat 2 k.val).toNat = k.val := Nat.mod_eq_of_lt (by omega)
    exact ⟨_, hidx, step_dispatch hs hi hr⟩
  · rintro rfl
    exact step_dispatch hs hi hr

/-! ### Every step answers a next state -/

section next
variable {i : Instr} {s : State}

/-- The checks before an operation raise a fault, which is a next state, or run its rule (60_exceptions R284). -/
theorem guardOp_next {k : Outcome State Fault Refusal} (hk : ∃ t, k = .next t) : ∃ t, guardOp i s k = .next t := by
  rcases guardOp_cases i s k with ⟨-, e⟩ | ⟨-, -, -, e⟩ | ⟨-, -, e⟩
  · exact ⟨_, e⟩
  · exact ⟨_, e⟩
  · rwa [e]

/-- Only a sequence in progress could stop an operation (log 10). -/
theorem exec_next_of_no_seq (hc : s.curSeq = none) : ∃ t, exec i s = .next t := by
  cases i with
  | start | stop | send | receive =>
    simp only [exec, execStart, execStop, execSend, execReceive, hc]
    exact guardOp_next ⟨_, rfl⟩
  | waittx | waitrx =>
    simp only [exec, execWaittx, execWaitrx, hc]
    split
    · exact ⟨_, rfl⟩
    · exact guardOp_next ⟨_, rfl⟩
  | evtxc idx ok =>
    refine guardOp_next (i := .evtxc idx ok) ?_
    split <;> exact ⟨_, rfl⟩
  | evrxa idx =>
    refine guardOp_next (i := .evrxa idx) ?_
    split
    · exact ⟨_, rfl⟩
    split
    · exact ⟨_, rfl⟩
    split <;> exact ⟨_, rfl⟩
  | qpop =>
    refine guardOp_next (i := .qpop) ?_
    split <;> exact ⟨_, rfl⟩
  | tcalc => exact guardOp_next (i := .tcalc) (s := s) ⟨_, rfl⟩
  | pricmp => exact guardOp_next (i := .pricmp) (s := s) ⟨_, rfl⟩
  | _ => exact guardOp_next ⟨_, rfl⟩

theorem issue_next {a : Agent} (ha : mayIssue a s = true) (w : Word) : ∃ t, issue a w s = .next t := by
  unfold issue
  split
  · exact ⟨_, rfl⟩
  · exact exec_next_of_no_seq (curSeq_of_mayIssue ha)

theorem carryOn_next (u : Nat) (k : Wake) (s : State) : ∃ t, carryOn u k s = .next t := by
  unfold carryOn
  split
  · split
    · exact ⟨_, rfl⟩
    · next q hq => exact ⟨_, exec_of_seqGet (t := u) rfl hq⟩
  · exact ⟨_, rfl⟩

theorem Cause.handled_next (c : Cause) (ts : Tick) (s : State) : ∃ t, c.handled ts s = .next t := by
  cases c with
  | txc i | rx k | status =>
    unfold Cause.handled
    exact exec_next_of_no_seq rfl

theorem serve_next (c : Cause) (s : State) : ∃ t, serve c s = .next t := by
  cases hi : s.irq with
  | none => exact ⟨s, by rw [serve, hi]⟩
  | some ts =>
    by_cases hr : s.ctrl.raised c = true
    · exact serve_of_raised hi hr ▸ c.handled_next ts s
    · exact ⟨s, by rw [serve, hi]; exact if_neg hr⟩

theorem perform_next (m : Move) (s : State) : ∃ t, perform m s = .next t := by
  cases m with
  | load a w =>
    unfold perform
    dsimp only
    split <;> exact ⟨_, rfl⟩
  | cmd a w =>
    unfold perform
    dsimp only
    split
    · next ha => exact issue_next ha w
    · exact ⟨_, rfl⟩
  | run u k => exact carryOn_next u k s
  | dispatch c => exact serve_next c s
  | ctrl | tick | irqEnter | irqLeave => exact ⟨_, rfl⟩

end next

/-- Settles O60: a command word is issued only with no sequence in progress, and a thread carries on only its own. -/
theorem stepNeverStops : Obligations.StepNeverStops := by
  intro s
  cases hs : s.sched with
  | nil => exact ⟨s, by rw [step, hs]⟩
  | cons m rest => exact step_of_sched hs ▸ perform_next m { s with sched := rest }

end Sys2Proof.Machine

/-! SUPPORT. Power-on (70_reset_and_hazards R331), the base case of the invariants that every step keeps. -/

namespace Sys2Proof.Machine

section noSeq
variable {s : State}

/-- With the lock free and no sequence in progress, nobody owns and nobody stands past `acquire(mtx)`. -/
theorem State.lockInv_of_no_seq (hm : s.mtx = none) (hq : s.seqs = []) : s.LockInv := by
  rw [State.lockInv_iff, hm, hq]
  exact ⟨rfl, fun _ => ⟨nofun, nofun⟩⟩

/-- Stopped, with no owner, no Driver State and no interrupt entry, the session is in order (10_state R26; log 3). -/
theorem State.sessionInv_of_stopped (hl : s.LockInv) (hm : s.mtx = none) (hs : s.sess = .stopped)
    (hd : s.drv = Driver.absent) (hi : s.irq = none) : s.SessionInv := by
  refine (State.sessionInv_iff hl).mpr ⟨?_, fun h => absurd hi h⟩
  rw [State.Fits, State.ownerSeq_of_free hm, hs, hd]
  exact SessionFits.free_of_discarded

end noSeq

/-- The stand-in for no Driver State (log 3) is an empty queue with no peak. -/
theorem Driver.absent_rangeInv : Driver.absent.RangeInv := ⟨⟨Nat.zero_le 16, rfl⟩, Nat.zero_le 2⟩

/-- The stand-in for no Driver State (log 3) has no pending slot. -/
theorem Driver.absent_shapeInv : Driver.absent.ShapeInv := by
  intro i hp
  rw [Driver.absent_slot] at hp
  cases hp

/-- Settles O54: with no owner, no sequence and no Driver State, the invariants have nothing to keep in agreement. -/
theorem resetMeetsInvariants : Obligations.ResetMeetsInvariants := by
  have hlock : State.reset.LockInv := State.lockInv_of_no_seq rfl rfl
  have hsession : State.reset.SessionInv := State.sessionInv_of_stopped hlock rfl rfl rfl rfl
  have henable : State.reset.EnableInv := rfl
  exact ⟨⟨rfl, rfl, rfl, rfl, rfl, 0, rfl⟩, hlock, hsession, Driver.absent_rangeInv, Driver.absent_shapeInv, henable⟩

end Sys2Proof.Machine
